-- ==== Sys2Proof/Word.lean ====
section
/-!
DEFINITION. The word types of the PT-4000 and the plain records that a command carries as operands: what an
access met (Env), a mailbox transport unit (R414), a serving frame (R335), a Traverse frame (R373), a weight-store
flit (R303), and the names of the registers that software reads and writes (R7).
-/

namespace Sys2Proof

abbrev Byte := BitVec 8
/-- An LNS16 word (R45). -/
abbrev Lns := BitVec 16
/-- A status code: class in bits [15:8], code in bits [7:0] (R12). -/
abbrev Status := BitVec 16
/-- A global Station number (R16). -/
abbrev Stn := Fin 64
/-- A Facet (R16). -/
abbrev Facet := Fin 4

/-- What the SECDED check bits of the module's own control and Station structures show in the words that a command reads
(R508): nothing, an error that is corrected, or an uncorrectable one. -/
inductive Sram where
  | good | corrected | bad
  deriving DecidableEq, Repr

/-- What the surroundings do to an access of a command: `late`, its Range bytes are not present in the tick that needs them
(R83, R242); `ue`, the memory read meets an uncorrectable error (R319); `ce`, it meets a corrected one (R318); `chk`, the
number of bit errors that the scratchpad word read shows (R253), 0 for none, and `stored` whether they are in the stored
word rather than in the read path (R257); `nth` the access that meets all this, counted from 0 among those that the
command makes in order. `sram` concerns the Station or tracker structures that the command reads (R508), `rmw` the read-modify-write
of a partly valid sector that the command's flush of posted writes makes (R311). -/
structure Env where
  late   : Bool
  ue     : Bool
  chk    : Nat
  ce     : Bool := false
  stored : Bool := false
  nth    : Nat := 0
  sram   : Sram := .good
  rmw    : Sram := .good
  deriving DecidableEq, Repr

/-- An access that meets nothing unusual. -/
def Env.clean : Env := { late := false, ue := false, chk := 0 }

/-- What access `k` of a command meets. -/
def Env.of (e : Env) (k : Nat) : Env := if e.nth = k then e else Env.clean

/-- A half-block of a request's KV whose 512th token a task has written (R349): its request, layer, KV head and number. -/
structure Seal where
  req   : BitVec 16
  layer : BitVec 10
  head  : BitVec 6
  half  : BitVec 12
  deriving DecidableEq, Repr

/-- How a transport unit reaches the module (R419). -/
inductive Transport where
  | mgmt | i3c | traverse
  deriving DecidableEq, Repr

/-- The source of a transport unit: an IPv6 address and UDP port on management Ethernet, the controller on I3C, or a
(module, Parcel) pair on the Traverse, `parcel = none` standing for a maintenance mailbox (R419, R422). -/
structure USource where
  transport : Transport
  addr      : BitVec 128
  udp       : BitVec 16
  module    : BitVec 12
  parcel    : Option (Fin 16)
  deriving DecidableEq, Repr

/-- A transport unit as received (R414). `tlen` is the length in bytes that the transport reports for the whole unit. -/
structure MUnit where
  source  : USource
  magic   : BitVec 16
  ver     : Byte
  ukind   : Byte
  mbox    : Byte
  rsv5    : Byte
  seq     : BitVec 16
  code    : BitVec 16
  len     : BitVec 16
  tag     : BitVec 32
  payload : List Byte
  crc     : BitVec 32
  tlen    : Nat
  deriving DecidableEq, Repr

/-- A client's serving frame with the packet facts the port checks first (R333 to R338). `bad` says that the packet is
fragmented, has a bad UDP checksum or carries an extension header; `udpLen` is the length of the UDP payload. The TYPE is the
command's, or the reserved one that `typ` gives in its place; `full` says that its Parcel's receive queue of 256 KiB is full. -/
structure SFrame where
  port      : Fin 2
  srcAddr   : BitVec 128
  srcPort   : BitVec 16
  dstPort   : BitVec 16
  bad       : Bool
  udpLen    : Nat
  magic     : BitVec 16
  ver       : Byte
  seq       : BitVec 16
  len       : BitVec 16
  clientTag : BitVec 32
  reqWord   : BitVec 32
  status    : BitVec 16
  modWord   : BitVec 16
  offset    : BitVec 32
  payload   : List Byte
  typ       : Option Byte := none
  full      : Bool := false
  deriving DecidableEq, Repr

/-- A Traverse frame as it arrives on a logical port (R372, R373), `set` the SET of its virtual channel (R371). Its TYPE is the
command's, or `typ`, a reserved one (R374; log entry 153). -/
structure TFrame where
  port    : Fin 18
  set     : Bool
  sparcel : BitVec 4
  dparcel : BitVec 4
  cls     : BitVec 8
  fver    : Byte
  pseq    : BitVec 24
  rsv7    : Byte
  dest    : BitVec 16
  src     : BitVec 16
  hops    : BitVec 16
  plangen : BitVec 16
  len     : BitVec 16
  rsv18   : BitVec 16
  tag     : BitVec 32
  addr    : BitVec 64
  payload : List Byte
  ecrc    : BitVec 32
  typ     : Option Byte := none
  deriving DecidableEq, Repr

/-- The TYPE of a frame that came under the row of TYPE `k`. -/
def TFrame.kind (f : TFrame) (k : Nat) : Nat := match f.typ with
  | some x => x.toNat
  | none => k

/-- A weight-store flit (R303). `errs` is the number of byte errors that the Reed-Solomon code meets, `crc` its CRC field after
correction. -/
structure WFlit where
  seq     : BitVec 12
  tag     : Byte
  aux     : Byte
  payload : List Byte
  errs    : Nat
  crc     : BitVec 32
  deriving DecidableEq, Repr

/-- Who submits a descriptor: Grenlor's graph instantiation (R347), its test scheduler (R286), or any other part of
Grenlor (R272 checks 5 and 9). -/
inductive Submitter where
  | graph | test | other
  deriving DecidableEq, Repr

/-- The registers of the module, by name. A register kept per Station, Facet, stack, link, mailbox or Parcel is named
with an index beside it. -/
inductive RegId where
  | stnFmtStatus | stnArrStatus | stnBspStatus | accStatus | recStatus | stnStatus | stnChkCtl | stnConflictInfo
  | stnTrkStatus | stnMemStackStatus | stnGateStatus
  | trvLinkStatus | trvPlanStatus
  | mbxStatus | mbxParcelStatus | mbxPlanStatus
  | secStatus | secLmsStatus
  | clkStatus | clkFaultCause | pwrStatus | pwrStnStateLo | pwrStnStateHi | pwrRailFault | pwrCageFault
  | crnStatus | crnTime | depStatus
  | tpertTarget | tpertAction | tpertAddr | tpertHits | tpertCtl
  | stnCounter (k : Nat) | trkCounter (k : Nat) | memCounter (k : Nat) | gateCounter (k : Nat)
  | trvCounter (k : Nat) | mbxCounter (k : Nat) | modCounter (k : Nat)
  deriving DecidableEq, Repr

end Sys2Proof
end

