-- ==== Sys2Proof/Syntax.lean ====
section
/-!
DEFINITION. The commands of the PT-4000: one constructor for each row of spec/opcode_table.json, in the table's order.
An operand is what the spec gives the row: a slot's fields (reserved fields included, so that the checks on them can
be made), a frame, a unit, a reading. `n` is a global Station, `t` the AON time at which the command takes effect,
`env` what an access met. The row of a slot that carries no operation takes the code that the slot holds: 0, or a reserved
one that names no operation (R80, R155, R187, R235, R239, R243, R248).
-/

namespace Sys2Proof

inductive Instr where
  -- the array slot and the LOAD field (03, 04)
  | anop (n : Stn) (inLoad : Bool) (code : BitVec 4) (rsv : BitVec 36)
  | amac (n : Stn) (slot : BitVec 6) (swap : Bool) (istr : BitVec 2) (rsv : BitVec 27) (env : Env)
  | aloadd (n : Stn) (inLoad : Bool) (wstr : BitVec 2) (nm1 : BitVec 9) (blk : Bool) (cnta : BitVec 18) (rsv : BitVec 6)
      (env : Env)
  | aloadm (n : Stn) (inLoad : Bool) (wstr : BitVec 2) (nm1 : BitVec 9) (blk : Bool) (cnta : BitVec 18) (rsv : BitVec 6)
      (env : Env)
  | bload (n : Stn) (inLoad : Bool) (wstr : BitVec 2) (nm1 : BitVec 9) (bank : Bool) (pair : Bool) (rsv : BitVec 23)
      (env : Env)
  | brun (n : Stn) (slot : BitVec 6) (bm1 : BitVec 6) (bank : Bool) (add : Bool) (istr : BitVec 2) (rsv19 : Bool)
      (pem1 : BitVec 3) (rsv : BitVec 16) (env : Env)
  | loaderTick (n : Stn) (env : Env)
  | brunPass (n : Stn) (env : Env)
  | brunOverrunFreeze (n : Stn)
  | brunWindowClose (n : Stn)
  | columnSumAdd (n : Stn) (env : Env)
  | replayComplete (n : Stn) (env : Env)
  -- the drain slot (05)
  | dnop (n : Stn) (code : BitVec 4) (rsv : BitVec 36)
  | drain (n : Stn) (slot : BitVec 6) (out : BitVec 2) (close : Bool) (ostra ostrb : BitVec 2) (gb : BitVec 6)
      (ngl : BitVec 3) (wm1 : BitVec 3) (uns : Bool) (rsv : BitVec 10)
  | dred (n : Stn) (slot : BitVec 6) (out : BitVec 2) (close : Bool) (ostra ostrb : BitVec 2) (gb : BitVec 6)
      (ngl : BitVec 3) (rsvw : BitVec 4) (rsv : BitVec 10)
  | dinit (n : Stn) (slot : BitVec 6) (nm1 : BitVec 6) (di : BitVec 8) (start : BitVec 2) (clrs : Bool) (rsv : BitVec 13)
  | dfill (n : Stn) (slot : BitVec 6) (istr : BitVec 2) (rsv : BitVec 28) (env : Env)
  | drainBlockWrite (n : Stn) (env : Env)
  | holdEnd (n : Stn) (k : Nat) (env : Env)
  | memoryAtomicAdd (ctl : Fin 20) (env : Env)
  | atomicAddAck (n : Stn) (id : Nat)
  -- the Recon slot (06)
  | rnop (n : Stn) (code : BitVec 4) (rsv : BitVec 36)
  | rpred (n : Stn) (istr : BitVec 2) (pblk : BitVec 18) (tok : BitVec 7) (gb : BitVec 6) (rsv : BitVec 3) (env : Env)
  | rsel (n : Stn) (istr : BitVec 2) (pblk : BitVec 18) (tok : BitVec 7) (gb : BitVec 6) (rsv : BitVec 3) (env : Env)
  | rfin (n : Stn) (pblk : BitVec 18) (ntm1 : BitVec 7) (ga : BitVec 6) (rsv : BitVec 5) (env : Env)
  | rchk (n : Stn) (istr : BitVec 2) (pblk : BitVec 18) (tok : BitVec 7) (bi : BitVec 3) (rsv : BitVec 6) (env : Env)
  | reconRecordWrite (n : Stn) (env : Env)
  | rfinListsWrite (n : Stn) (env : Env)
  -- the vector slots (07, 10): engine e, fields of R243
  | vnop (n : Stn) (e : Fin 4) (code : BitVec 6) (vd va vb : BitVec 5) (aux : BitVec 35)
  | vadd (n : Stn) (e : Fin 4) (vd va vb : BitVec 5) (aux : BitVec 35)
  | vsub (n : Stn) (e : Fin 4) (vd va vb : BitVec 5) (aux : BitVec 35)
  | vmul (n : Stn) (e : Fin 4) (vd va vb : BitVec 5) (aux : BitVec 35)
  | vdiv (n : Stn) (e : Fin 4) (vd va vb : BitVec 5) (aux : BitVec 35)
  | vmax (n : Stn) (e : Fin 4) (vd va vb : BitVec 5) (aux : BitVec 35)
  | vmin (n : Stn) (e : Fin 4) (vd va vb : BitVec 5) (aux : BitVec 35)
  | vneg (n : Stn) (e : Fin 4) (vd va vb : BitVec 5) (aux : BitVec 35)
  | vexp2 (n : Stn) (e : Fin 4) (vd va vb : BitVec 5) (aux : BitVec 35)
  | vcmpge (n : Stn) (e : Fin 4) (vd va vb : BitVec 5) (aux : BitVec 35)
  | vbcast (n : Stn) (e : Fin 4) (vd va vb : BitVec 5) (aux : BitVec 35)
  | vimm (n : Stn) (e : Fin 4) (vd va vb : BitVec 5) (aux : BitVec 35)
  | vrmax (n : Stn) (e : Fin 4) (vd va vb : BitVec 5) (aux : BitVec 35)
  | vrsum (n : Stn) (e : Fin 4) (vd va vb : BitVec 5) (aux : BitVec 35)
  | vsets (n : Stn) (e : Fin 4) (vd va vb : BitVec 5) (aux : BitVec 35)
  | vld (n : Stn) (e : Fin 4) (vd va vb : BitVec 5) (aux : BitVec 35) (env : Env)
  | vst (n : Stn) (e : Fin 4) (vd va vb : BitVec 5) (aux : BitVec 35)
  | vmskld (n : Stn) (e : Fin 4) (vd va vb : BitVec 5) (aux : BitVec 35) (env : Env)
  | vcvt (n : Stn) (e : Fin 4) (vd va vb : BitVec 5) (aux : BitVec 35) (env : Env)
  | vpack (n : Stn) (e : Fin 4) (vd va vb : BitVec 5) (aux : BitVec 35)
  | vpackBlockWrite (n : Stn) (e : Fin 4)
  | vtern (n : Stn) (e : Fin 4) (vd va vb : BitVec 5) (aux : BitVec 35) (env : Env)
  | vtstrip (n : Stn) (e : Fin 4) (vd va vb : BitVec 5) (aux : BitVec 35)
  | vtrow (n : Stn) (e : Fin 4) (vd va vb : BitVec 5) (aux : BitVec 35)
  | vtcnt (n : Stn) (e : Fin 4) (vd va vb : BitVec 5) (aux : BitVec 35) (env : Env)
  -- the scalar slot (07, R239)
  | snop (n : Stn) (code : BitVec 6) (sd sa sb : BitVec 5) (imm : BitVec 27)
  | sadd (n : Stn) (sd sa sb : BitVec 5) (imm : BitVec 27)
  | ssub (n : Stn) (sd sa sb : BitVec 5) (imm : BitVec 27)
  | sand (n : Stn) (sd sa sb : BitVec 5) (imm : BitVec 27)
  | sor (n : Stn) (sd sa sb : BitVec 5) (imm : BitVec 27)
  | sxor (n : Stn) (sd sa sb : BitVec 5) (imm : BitVec 27)
  | sshl (n : Stn) (sd sa sb : BitVec 5) (imm : BitVec 27)
  | sshr (n : Stn) (sd sa sb : BitVec 5) (imm : BitVec 27)
  | saddi (n : Stn) (sd sa sb : BitVec 5) (imm : BitVec 27)
  | sli (n : Stn) (sd sa sb : BitVec 5) (imm : BitVec 27)
  | slih (n : Stn) (sd sa sb : BitVec 5) (imm : BitVec 27)
  | sld (n : Stn) (sd sa sb : BitVec 5) (imm : BitVec 27) (env : Env)
  | sst (n : Stn) (sd sa sb : BitVec 5) (imm : BitVec 27) (env : Env)
  | sset (n : Stn) (sd sa sb : BitVec 5) (imm : BitVec 27)
  | spos (n : Stn) (sd sa sb : BitVec 5) (imm : BitVec 27)
  -- the DMA slot (07, R248)
  | mnop (n : Stn) (code : BitVec 4) (sa sb sc : BitVec 5) (tag : BitVec 4) (rsv : BitVec 17)
  | min (n : Stn) (sa sb sc : BitVec 5) (tag : BitVec 4) (rsv : BitVec 17)
  | mout (n : Stn) (sa sb sc : BitVec 5) (tag : BitVec 4) (rsv : BitVec 17)
  | mcopy (n : Stn) (sa sb sc : BitVec 5) (tag : BitVec 4) (rsv : BitVec 17)
  | dmaTransferComplete (n : Stn) (tag : BitVec 4) (env : Env)
  -- the CTL field, which closes the bundle (07, R235)
  | cnop (n : Stn) (code : BitVec 4) (rsv : BitVec 36) (env : Env)
  | loop (n : Stn) (bm1 : BitVec 12) (csrc : Bool) (sc : BitVec 5) (ch : Bool) (imm : BitVec 17) (env : Env)
  | step (n : Stn) (rsv : BitVec 36) (env : Env)
  | dwait (n : Stn) (mask : BitVec 16) (rsv : BitVec 20) (env : Env)
  | endProg (n : Stn) (rsv : BitVec 36) (env : Env)
  -- Station events (07)
  | rangeDataArrival (n : Stn) (cycles : Nat)
  | issueDutyWindow (f : Facet)
  | rerunResume (n : Stn) (dmaTicks : Nat)
  | scratchScrubLine (n : Stn) (bank : Fin 32) (errs : List (Nat × Nat))
  | scrubComplete (n : Stn)
  -- task graphs (08)
  | taskComplete (n : Stn) (t : Nat) (katPass : Bool) (seals : List Seal) (env : Env)
  | descriptorSubmit (f : Facet) (desc : List Byte) (by_ : Submitter) (ue : Bool) (t : Nat)
  | taskDispatch (n : Stn) (zero : Bool) (t : Nat) (env : Env)
  | completionToken (f : Facet) (toks : List (BitVec 64)) (t : Nat)
  | pendingTokenExpire (f : Facet) (t : Nat)
  | deadlineReached (f : Facet) (tid : BitVec 12) (t : Nat)
  | runLimit (n : Stn) (t : Nat)
  | katDue (n : Stn) (t : Nat)
  | gateKatDue (fails : List (Fin 20)) (t : Nat)
  -- memory tiers (09)
  | writeCombineFlush (n : Stn) (region : Nat) (env : Env)
  | pageMoveStart (t : Nat)
  | pageMoveFlip (stack : Fin 36) (ue : Option (BitVec 15)) (t : Nat)
  | verifyReadComplete (rpage : BitVec 23) (ok : Bool)
  | tierWWriteComplete (w : Fin 16) (ue : Option (BitVec 15)) (t : Nat)
  | unmapComplete (rpage : BitVec 23)
  | frameZeroingComplete (stack : Fin 36) (frame : Nat)
  | patrolScrub (stack : Fin 36) (frame : Nat) (sector : Nat) (corrected : Nat) (ue : Bool) (t : Nat)
  | stackTempReading (stack : Fin 36) (temp : BitVec 10) (t : Nat)
  | stackRfmRequest (h : Fin 16)
  | selfRefreshEntry (stack : Fin 20) (t : Nat)
  | seamFlit (seam : Fin 13) (dir : Bool) (seq ackseq : BitVec 10) (nak : Bool) (rsv : BitVec 11) (crc : BitVec 32)
      (payload : List Byte)
  | seamRetrainEnd (seam : Fin 13) (ok : Bool) (t : Nat)
  | seamSilenceTimeout (seam : Fin 13) (t : Nat)
  | wslIdle (w : Fin 16) (fl : WFlit)
  | wslRead (w : Fin 16) (fl : WFlit)
  | wslData (w : Fin 16) (fl : WFlit)
  | wslProg (w : Fin 16) (fl : WFlit)
  | wslProgdata (w : Fin 16) (fl : WFlit)
  | wslErase (w : Fin 16) (fl : WFlit)
  | wslTagwr (w : Fin 16) (fl : WFlit)
  | wslDone (w : Fin 16) (fl : WFlit)
  | wslStatusrd (w : Fin 16) (fl : WFlit)
  | wslStatusrsp (w : Fin 16) (fl : WFlit) (t : Nat)
  | wslAck (w : Fin 16) (up : Bool) (fl : WFlit)
  | wslNak (w : Fin 16) (up : Bool) (fl : WFlit)
  | wslRetrainEnd (w : Fin 16) (ok : Bool) (t : Nat)
  -- serving (10)
  | submit (fr : SFrame) (t : Nat)
  | prompt (fr : SFrame) (t : Nat)
  | cancel (fr : SFrame) (t : Nat)
  | resend (fr : SFrame) (t : Nat)
  | endack (fr : SFrame) (t : Nat)
  | icmpv6Echo (port : Option (Fin 2)) (src dst : BitVec 128) (data : List Byte)
  | neighbourDiscovery (port : Option (Fin 2)) (src target : BitVec 128)
  | promptTimeout (req : BitVec 16) (t : Nat)
  | requestTtl (req : BitVec 16) (t : Nat)
  | endResendTimer (req : BitVec 16) (parityOk : Bool) (t : Nat)
  | endingTimeout (req : BitVec 16) (t : Nat)
  | requestAdmit (p : Fin 16) (t : Nat)
  | graphInstantiate (req : BitVec 16) (t : Nat)
  | decodeHandoff (req : BitVec 16) (room : List Nat) (t : Nat)
  | kvSegmentShip (req : BitVec 16) (layer : BitVec 8) (head : BitVec 8) (t : Nat)
  | gateJob (f : Facet) (env : Env) (t : Nat)
  | gateJobComplete (f : Facet) (parityOk : Bool) (katPass : Bool) (t : Nat)
  | adaptStepDeadline (p : Fin 16) (step : BitVec 32) (t : Nat)
  -- the Traverse (11)
  | traverseFlit (link : Fin 18) (ftype : BitVec 2) (fseq ackseq : BitVec 12) (nak : Bool) (dvc cvc : BitVec 3)
      (credits : BitVec 5) (first : BitVec 10) (payload : List Byte) (crc : BitVec 32) (symErrs : Nat)
  | traverseLinkSilence (link : Fin 18) (t : Nat)
  | traverseRetrainEnd (link : Fin 18) (ok : Bool) (t : Nat)
  | write (fr : TFrame) (t : Nat)
  | add (fr : TFrame) (env : Env) (t : Nat)
  | traverseAck (fr : TFrame) (t : Nat)
  | token (fr : TFrame) (t : Nat)
  | mailbox (fr : TFrame) (u : MUnit) (t : Nat)
  | reqctlCancel (fr : TFrame) (t : Nat)
  | reqctlResend (fr : TFrame) (t : Nat)
  | reqEnd (fr : TFrame) (t : Nat)
  | kvseg (fr : TFrame) (t : Nat)
  | grad (fr : TFrame) (t : Nat)
  | drop (fr : TFrame) (t : Nat)
  | image (link : Fin 18) (fr : TFrame) (t : Nat)
  | hello (link : Fin 18) (fr : TFrame) (t : Nat)
  | closure (port : Fin 18) (fr : TFrame) (t : Nat)
  | reopen (port : Fin 18) (fr : TFrame) (t : Nat)
  | frameAckTimeout (tag : BitVec 32) (t : Nat)
  | linkFailedTimeout (link : Fin 18) (t : Nat)
  | linkTrainingTimeout (link : Fin 18) (t : Nat)
  | linkTrained (link : Fin 18) (t : Nat)
  | quarantineRetry (link : Fin 18) (t : Nat)
  | probationEnd (link : Fin 18) (t : Nat)
  | routeRecompute (t : Nat)
  | routesTakeEffect (t : Nat)
  -- mailbox commands (12)
  | sync (u : MUnit) (t : Nat)
  | echo (u : MUnit) (t : Nat)
  | relay (u : MUnit) (t : Nat)
  | stageWrite (u : MUnit) (t : Nat)
  | stageRead (u : MUnit) (t : Nat)
  | parcelInfo (u : MUnit) (t : Nat)
  | parcelReset (u : MUnit) (t : Nat)
  | recipeBind (u : MUnit) (t : Nat)
  | recipeUnbind (u : MUnit) (t : Nat)
  | pageAlloc (u : MUnit) (t : Nat)
  | pageFree (u : MUnit) (t : Nat)
  | pageEntry (u : MUnit) (t : Nat)
  | dataIn (u : MUnit) (t : Nat)
  | dataOut (u : MUnit) (t : Nat)
  | maskLoad (u : MUnit) (t : Nat)
  | grammarLoad (u : MUnit) (t : Nat)
  | codebookLoad (u : MUnit) (t : Nat)
  | windowSet (u : MUnit) (t : Nat)
  | graphRun (u : MUnit) (t : Nat)
  | notifyConfig (u : MUnit) (t : Nat)
  | doorbellSet (u : MUnit) (t : Nat)
  | regRead (u : MUnit) (t : Nat)
  | cairnRead (u : MUnit) (t : Nat)
  | planLoad (u : MUnit) (t : Nat)
  | overlayApply (u : MUnit) (t : Nat)
  | sharePublish (u : MUnit) (t : Nat)
  | shareGrant (u : MUnit) (t : Nat)
  | shareRevoke (u : MUnit) (t : Nat)
  | pageReload (u : MUnit) (t : Nat)
  | tpertAccess (u : MUnit) (t : Nat)
  | imageUpdate (u : MUnit) (t : Nat)
  | attest (u : MUnit) (t : Nat)
  | debugChallenge (u : MUnit) (t : Nat)
  | debugAuthorise (u : MUnit) (t : Nat)
  | notifyAck (u : MUnit) (t : Nat)
  | heldCommandTimeout (mbox : Fin 17) (seq : BitVec 16) (t : Nat)
  | relayTimeout (mbox : Fin 17) (t : Nat)
  | coalesceTimeout (mbox : Fin 17) (vector : BitVec 6) (ncode : BitVec 16) (t : Nat)
  | notifyResendTimer (mbox : Fin 17) (t : Nat)
  | parcelResetComplete (p : Fin 16) (t : Nat)
  | sampleWindow (p : Fin 16) (t : Nat)
  -- the I3C sideband (12, R421)
  | i3cPrivateWrite (u : MUnit) (t : Nat)
  | i3cPrivateRead (t : Nat)
  | enec (events : BitVec 8)
  | disec (events : BitVec 8)
  | rstdaa
  | entdaa (addr : BitVec 7)
  | setdasa (static addr : BitVec 7)
  | setnewda (addr : BitVec 7)
  | setmwl (len : BitVec 16)
  | setmrl (len : BitVec 16)
  | getmwl
  | getmrl
  | getpid
  | getbcr
  | getdcr
  | getstatus
  -- configuration (13)
  | quiescentSwitch (t : Nat)
  | applyQuiesceTimeout (t : Nat)
  | configFlashWriteDone (t : Nat)
  -- boot and security (14)
  | powerOnReset (t : Nat) (selfTestOk : Bool)
  | recoveryRetry (t : Nat)
  | imageRequestRepeat (link : Fin 18) (t : Nat)
  | fuseAdvanceDue (t : Nat)
  | fuseBlowComplete (t : Nat)
  | lmsCounterWriteDone (t : Nat)
  | lowerTreeComplete (t : Nat)
  | bucketRefill (t : Nat)
  | challengeExpire (t : Nat)
  | debugPortOpen (t : Nat)
  | bypass
  | idcode
  | samplePreload
  | extest
  | clamp
  | highz
  | dieDebugChain (k : BitVec 4)
  -- clocks and power (15)
  | pllLock
  | dividerSwitchStop (ctr : BitVec 12)
  | dividerSwitchResume
  | trimRampComplete
  | clockFault (cause : BitVec 3) (t : Nat)
  | stationReadyTimeout (n : Stn) (t : Nat)
  | stationWakeComplete (n : Stn) (t : Nat)
  | inputPowerSample (watts : Nat) (vin : BitVec 16) (t : Nat)
  | projectionWindow (lower : Bool) (t : Nat)
  | guardLower (t : Nat)
  | powerUp (vin : BitVec 16) (resetHigh : Bool)
  | resetNLow (t : Nat)
  | resetNHigh (modsel : BitVec 2) (selfTestOk : Bool)
  | sagEnter (vin : BitVec 16) (t : Nat)
  | sagEnd (vin : BitVec 16) (t : Nat)
  | boostWithheld (vin : BitVec 16) (t : Nat)
  | abortEnter (vin : BitVec 16) (t : Nat)
  | abortExit (vin : BitVec 16) (t : Nat)
  | shutdown (vin : BitVec 16) (t : Nat)
  | railFault (rail : BitVec 4) (t : Nat)
  | lockstepDisagree (pair : Fin 4) (t : Nat)
  | dieTempReading (die : Fin 6) (sensors : List (Option (BitVec 10))) (t : Nat)
  | maintenanceWindowOpen (t : Nat)
  | benchmarkRead (n : Stn) (slack : List Int) (ro : List Int) (t : Nat)
  | marginReplan (t : Nat)
  | operatingHoursTick (t : Nat)
  | cairnRecordClose (t : Nat)
  | cairnPeriodEnd (t : Nat)
  | cairnFlush (t : Nat)
  -- cages and registers (17, 16, 00)
  | cageModuleInserted (cage : Fin 20) (t : Nat)
  | cagePowerOn (cage : Fin 20) (t : Nat)
  | cageOvercurrent (cage : Fin 20) (t : Nat)
  | pwrCageFaultWrite (v : BitVec 32) (t : Nat)
  | tpertClearAll (t : Nat)
  | registerWrite (r : RegId) (ix : Nat) (v : BitVec 64)
  | selfRefreshExit (stack : Fin 20) (t : Nat)
  | cageModuleRemoved (cage : Fin 20) (t : Nat)
  | servingLinkDown (port : Fin 2) (t : Nat)
  | servingLinkUp (port : Fin 2) (t : Nat)
  | keyStoreWriteDone (t : Nat)
  | testLogicReset (trst : Bool)
  deriving DecidableEq, Repr

end Sys2Proof
end

