-- ==== Sys2Proof/Decode.lean ====
section
/-!
DEFINITION. The 512-bit bundle as commands: the split into slots (R232) and the operation that each slot's bits spell (R79, R113,
R118, R154, R185, R234, R235, R239, R243, R248, R361). The opcode table gives its rows no bits, so no word spells a command
by the table.
-/

namespace Sys2Proof

def decodeTableWord (_nbits _w : Nat) : Option Instr := none

/-- Bits [lo + w − 1 : lo] of a number. -/
def cut (x lo w : Nat) : BitVec w := BitVec.ofNat w (x >>> lo)

def bitAt (x k : Nat) : Bool := x >>> k % 2 == 1

/-- A load's 40 bits (R79, R113): ALOADD, ALOADM or BLOAD by the code in [39:36]. -/
def decodeLoad (n : Stn) (inLoad : Bool) (x : Nat) : Option Instr :=
  match x >>> 36 % 16 with
  | 2 => some (.aloadd n inLoad (cut x 34 2) (cut x 25 9) (bitAt x 24) (cut x 6 18) (cut x 0 6) Env.clean)
  | 3 => some (.aloadm n inLoad (cut x 34 2) (cut x 25 9) (bitAt x 24) (cut x 6 18) (cut x 0 6) Env.clean)
  | 8 => some (.bload n inLoad (cut x 34 2) (cut x 25 9) (bitAt x 24) (bitAt x 23) (cut x 0 23) Env.clean)
  | _ => none

/-- The array slot (R79, R113, R118). -/
def decodeArray (n : Stn) (x : Nat) : Instr :=
  match x >>> 36 % 16 with
  | 1 => .amac n (cut x 30 6) (bitAt x 29) (cut x 27 2) (cut x 0 27) Env.clean
  | 9 => .brun n (cut x 30 6) (cut x 24 6) (bitAt x 23) (bitAt x 22) (cut x 20 2) (bitAt x 19) (cut x 16 3) (cut x 0 16)
      Env.clean
  | _ => (decodeLoad n false x).getD (.anop n false (cut x 36 4) (cut x 0 36))

/-- The LOAD field (R234): a load, 0 for none, or a code that is not permitted there. -/
def decodeLoadField (n : Stn) (x : Nat) : Instr :=
  (decodeLoad n true x).getD (.anop n true (cut x 36 4) (cut x 0 36))

/-- The drain slot (R154). -/
def decodeDrain (n : Stn) (x : Nat) : Instr :=
  match x >>> 36 % 16 with
  | 1 => .drain n (cut x 30 6) (cut x 28 2) (bitAt x 27) (cut x 25 2) (cut x 23 2) (cut x 17 6) (cut x 14 3) (cut x 11 3)
      (bitAt x 10) (cut x 0 10)
  | 2 => .dred n (cut x 30 6) (cut x 28 2) (bitAt x 27) (cut x 25 2) (cut x 23 2) (cut x 17 6) (cut x 14 3) (cut x 10 4)
      (cut x 0 10)
  | 3 => .dinit n (cut x 30 6) (cut x 24 6) (cut x 16 8) (cut x 14 2) (bitAt x 13) (cut x 0 13)
  | 4 => .dfill n (cut x 30 6) (cut x 28 2) (cut x 0 28) Env.clean
  | _ => .dnop n (cut x 36 4) (cut x 0 36)

/-- The Recon slot (R185). -/
def decodeRecon (n : Stn) (x : Nat) : Instr :=
  match x >>> 36 % 16 with
  | 1 => .rpred n (cut x 34 2) (cut x 16 18) (cut x 9 7) (cut x 3 6) (cut x 0 3) Env.clean
  | 2 => .rsel n (cut x 34 2) (cut x 16 18) (cut x 9 7) (cut x 3 6) (cut x 0 3) Env.clean
  | 3 => .rfin n (cut x 18 18) (cut x 11 7) (cut x 5 6) (cut x 0 5) Env.clean
  | 4 => .rchk n (cut x 34 2) (cut x 16 18) (cut x 9 7) (cut x 6 3) (cut x 0 6) Env.clean
  | _ => .rnop n (cut x 36 4) (cut x 0 36)

/-- A vector slot (R243, R361). -/
def decodeVector (n : Stn) (e : Fin 4) (x : Nat) : Instr :=
  let vd : BitVec 5 := cut x 45 5
  let va : BitVec 5 := cut x 40 5
  let vb : BitVec 5 := cut x 35 5
  let aux : BitVec 35 := cut x 0 35
  match x >>> 50 % 64 with
  | 0x01 => .vadd n e vd va vb aux
  | 0x02 => .vsub n e vd va vb aux
  | 0x03 => .vmul n e vd va vb aux
  | 0x04 => .vdiv n e vd va vb aux
  | 0x05 => .vmax n e vd va vb aux
  | 0x06 => .vmin n e vd va vb aux
  | 0x07 => .vneg n e vd va vb aux
  | 0x08 => .vexp2 n e vd va vb aux
  | 0x09 => .vcmpge n e vd va vb aux
  | 0x0A => .vbcast n e vd va vb aux
  | 0x0B => .vimm n e vd va vb aux
  | 0x0C => .vrmax n e vd va vb aux
  | 0x0D => .vrsum n e vd va vb aux
  | 0x0E => .vsets n e vd va vb aux
  | 0x10 => .vld n e vd va vb aux Env.clean
  | 0x11 => .vst n e vd va vb aux
  | 0x12 => .vmskld n e vd va vb aux Env.clean
  | 0x13 => .vcvt n e vd va vb aux Env.clean
  | 0x14 => .vpack n e vd va vb aux
  | 0x30 => .vtern n e vd va vb aux Env.clean
  | 0x31 => .vtstrip n e vd va vb aux
  | 0x32 => .vtrow n e vd va vb aux
  | 0x33 => .vtcnt n e vd va vb aux Env.clean
  | _ => .vnop n e (cut x 50 6) vd va vb aux

/-- The scalar slot (R239). -/
def decodeScalar (n : Stn) (x : Nat) : Instr :=
  let sd : BitVec 5 := cut x 37 5
  let sa : BitVec 5 := cut x 32 5
  let sb : BitVec 5 := cut x 27 5
  let imm : BitVec 27 := cut x 0 27
  match x >>> 42 % 64 with
  | 0x01 => .sadd n sd sa sb imm
  | 0x02 => .ssub n sd sa sb imm
  | 0x03 => .sand n sd sa sb imm
  | 0x04 => .sor n sd sa sb imm
  | 0x05 => .sxor n sd sa sb imm
  | 0x06 => .sshl n sd sa sb imm
  | 0x07 => .sshr n sd sa sb imm
  | 0x08 => .saddi n sd sa sb imm
  | 0x09 => .sli n sd sa sb imm
  | 0x0A => .slih n sd sa sb imm
  | 0x0B => .sld n sd sa sb imm Env.clean
  | 0x0C => .sst n sd sa sb imm Env.clean
  | 0x0D => .sset n sd sa sb imm
  | 0x0E => .spos n sd sa sb imm
  | _ => .snop n (cut x 42 6) sd sa sb imm

/-- The DMA slot (R248). -/
def decodeDma (n : Stn) (x : Nat) : Instr :=
  match x >>> 36 % 16 with
  | 1 => .min n (cut x 31 5) (cut x 26 5) (cut x 21 5) (cut x 17 4) (cut x 0 17)
  | 2 => .mout n (cut x 31 5) (cut x 26 5) (cut x 21 5) (cut x 17 4) (cut x 0 17)
  | 3 => .mcopy n (cut x 31 5) (cut x 26 5) (cut x 21 5) (cut x 17 4) (cut x 0 17)
  | _ => .mnop n (cut x 36 4) (cut x 31 5) (cut x 26 5) (cut x 21 5) (cut x 17 4) (cut x 0 17)

/-- The CTL field (R235). -/
def decodeCtl (n : Stn) (x : Nat) : Instr :=
  match x >>> 36 % 16 with
  | 1 => .loop n (cut x 24 12) (bitAt x 23) (cut x 18 5) (bitAt x 17) (cut x 0 17) Env.clean
  | 2 => .step n (cut x 0 36) Env.clean
  | 3 => .dwait n (cut x 0 16) (cut x 16 20) Env.clean
  | 4 => .endProg n (cut x 0 36) Env.clean
  | _ => .cnop n (cut x 36 4) (cut x 0 36) Env.clean

/-- The commands that a bundle brings to a Station, in slot order (R232). -/
def decodeBundle (n : Stn) (w : BitVec 512) : List Instr :=
  let x := w.toNat
  let at40 (lo : Nat) : Nat := x >>> lo % 2 ^ 40
  let at56 (lo : Nat) : Nat := x >>> lo % 2 ^ 56
  [decodeArray n (at40 472), decodeDrain n (at40 432), decodeRecon n (at40 392), decodeVector n 0 (at56 336),
   decodeVector n 1 (at56 280), decodeVector n 2 (at56 224), decodeVector n 3 (at56 168),
   decodeScalar n (x >>> 120 % 2 ^ 48), decodeDma n (at40 80), decodeLoadField n (at40 40), decodeCtl n (at40 0)]

end Sys2Proof
end

