-- ==== Sys2Proof/Config.lean ====
section
/-!
DEFINITION. What a PT-4000 fixes outside the spec and what the spec leaves open. Every name here is opaque: nothing in
Lean can evaluate it, so a statement that mentions one holds whatever it is. The assumption log names each.
-/

namespace Sys2Proof.Config

/-- The 64-bit words that the Bezel's random source gives, in the order of the draws: session NONCEs (R61) and the
secrets of ECDSA (R452). A free value. -/
opaque random64 : Nat → BitVec 64
/-- The 48-byte debug challenges of the random source (R471). A free value. -/
opaque random384 : Nat → BitVec 384
/-- SHA-384 (FIPS 180-4), named by R439 and R463 and not written out in the spec. -/
opaque sha384 : List Byte → BitVec 384
/-- Whether an ECDSA P-384 signature (96 bytes) of a message verifies under a public key (R439). -/
opaque ecdsaOk : List Byte → List Byte → List Byte → Bool
/-- Whether an HSS signature (2,964 bytes) of a message verifies under a public key (R439). -/
opaque hssOk : List Byte → List Byte → List Byte → Bool
/-- The ECDSA signature that the Bezel makes with the identity key over a message (R464). -/
opaque ecdsaSign : List Byte → List Byte
/-- The HSS signature that the Bezel makes with the identity key at index q over a message (R465). -/
opaque hssSign : Nat → List Byte → List Byte
/-- The factory plan keys of the boot ROM: an ECDSA key (97 bytes) and an HSS key (60 bytes) (R452). -/
opaque factoryEcdsaKey : List Byte
opaque factoryHssKey : List Byte
/-- The firmware keys of the boot ROM (R452, R455). -/
opaque firmwareEcdsaKey : List Byte
opaque firmwareHssKey : List Byte
/-- The firmware image that provisioning leaves in the image region (R455). A free value. -/
opaque firmwareImage : List Byte
/-- The wrapper of the factory Base Plan (R3, R445). A free value. -/
opaque factoryPlan : List Byte
/-- The device identity digest DEVID (R461). -/
opaque devId : BitVec 64
/-- The ROM version that M0 is extended with (R463). -/
opaque romVersion : List Byte
/-- The MAC address of the management port, from which the factory address is formed (R420). -/
opaque mgmtMac : BitVec 48
/-- The I3C provisional ID that GETPID returns (R421). -/
opaque i3cPid : BitVec 48
/-- The bits [7:0] that GETSTATUS returns beside the vendor bits of R458. -/
opaque i3cStatusLow : BitVec 8
/-- Which register a REG_READ names by BLOCK, INDEX and offset (R424): the spec numbers neither blocks nor offsets. -/
opaque regOf : BitVec 8 → BitVec 16 → BitVec 32 → Option RegId
/-- The edges E1 to E15 of a module source's histogram, fixed in the firmware image (R519). -/
opaque moduleEdges : Nat → List Lns
/-- A scratchpad error of three or more bits in SECDED mode: true when it is miscorrected, false when it is detected;
which course a pattern takes is not specified (R258). The argument is a counter. -/
opaque secdedMiscorrects : Nat → Bool
/-- Whether a scratchpad error of four or more bits passes unseen in DETECT mode, which the code's distance leaves open
(R253). The argument is a counter. -/
opaque detectMisses : Nat → Bool
/-- The 64-bit word into which such an error is miscorrected (R258). -/
opaque secdedWord : Nat → BitVec 64
/-- The share of a request that Grenlor's graph-building leaves open: the free tracker entries it takes for new tasks, in
template order (R347); the argument is the instance and the index. -/
opaque freeTaskId : Nat → Nat → Nat
/-- The free frame that Grenlor chooses for a page in a stack (R294, R315): the argument is a counter. -/
opaque frameChoice : Nat → Nat
/-- The stack that Grenlor chooses for a new mirror (R320 step 6). -/
opaque mirrorStackChoice : Nat → Nat
/-- A number where the spec states the effect and no number: the argument is the State's counter `free`. A free value. -/
opaque freeNat : Nat → Nat

/-- The module number in serving frames and Traverse headers while no Survey Plan is in force, where the spec states none.
A free value. -/
opaque noModule : Nat

/-- What the test recipe fixes for the Station tests and the spec does not give (R286): the 128-byte header of the program's
image, its handle table and its generator table. Free values. -/
opaque katHeader : List Byte
opaque katHandles : List Byte
opaque katGens : List Byte

/-- The Range address at which a request's logits of a step lie, by SERIAL and step, which the spec does not tell Grenlor
(R356). A free value. -/
opaque gateLogits : Nat → Nat → Nat
/-- Where a Parcel's mask (0 to 63) or grammar table (64 to 79) lies in Tier N: four times its Range address, plus the Facet (R357, R424). The
spec does not tell. A free value. -/
opaque objectPlace : Nat → Nat → Nat
/-- The LNS16 word of nv = −log₂(−log₂ Uv) for a 24-bit r: R358 states the real number and no rounding. A free value. -/
opaque gumbel : Nat → Lns
/-- The D pages of a Parcel of the Base Plan that are mapped at start-up, as RPAGE, tier and stack (R328 step 5): the spec does not say
which. A free value. -/
opaque bootPages : Nat → List (Nat × Nat × Nat)
/-- Where the KV of a request lies in a Parcel's memory, by Parcel, request, layer, KV head and field: 0 KBASE, 1 VBASE, 2 the staging area
(R348), 3 AREA (R350), 4 the Recon strips and 5 the scale table of its summaries, 6 and 7 the tensor scales of its keys and values, 8 the
strips of a dimension (R349, R200), 9 the codebook set. The spec does not tell the module. Free values. -/
opaque kvPlace : Nat → Nat → Nat → Nat → Nat → Nat
/-- The dither words of the packing of a sealed half-block, by a counter and an index (R349): the spec names no generator. A free value. -/
opaque sealDither : Nat → Nat → BitVec 16
/-- What a decode module knows of a remote entry besides MODULE and REQ (R344), by those and a field number: the spec names no
frame that carries it. A free value. -/
opaque remoteWord : Nat → Nat → Nat → Nat

end Sys2Proof.Config
end

