-- ==== Sys2Proof/Machine/Bits.lean ====
section
/-!
DEFINITION. The helpers every unit of the model shares: tables by key, byte order (R5), sign extension, rounding,
serial-number comparison, and the CRC-32C of the links and units.
-/

namespace Sys2Proof.Machine

/-- A table by key. An absent key reads as the default that the reader gives. -/
abbrev Tab (α : Type) := List (Nat × α)

/-- The entry at key `k`, or `d` where the table lists none. -/
def tget {α : Type} (d : α) : Tab α → Nat → α
  | [], _ => d
  | (j, w) :: r, k => if k = j then w else tget d r k

/-- Puts `v` at key `k` of a table of objects, in place of the entry there. -/
def fput {α : Type} : Tab α → Nat → α → Tab α
  | [], k, v => [(k, v)]
  | (j, w) :: r, k, v =>
    if k = j then (k, v) :: r
    else if k < j then (k, v) :: (j, w) :: r
    else (j, w) :: fput r k v

/-- Removes key `k`. -/
def tdel {α : Type} (t : Tab α) (k : Nat) : Tab α := t.filter (fun p => p.1 != k)

/-- Puts `v` at key `k` of a table in canonical form: writing the default `d` removes the entry. -/
def mset {α : Type} [DecidableEq α] (d : α) : Tab α → Nat → α → Tab α
  | [], k, v => if v = d then [] else [(k, v)]
  | (j, w) :: r, k, v =>
    if k = j then (if v = d then r else (k, v) :: r)
    else if k < j then (if v = d then (j, w) :: r else (k, v) :: (j, w) :: r)
    else (j, w) :: mset d r k v

/-- The canonical form of a table: keys strictly rising and no entry equal to the default. -/
def Tab.wf {α : Type} [DecidableEq α] (d : α) : Tab α → Bool
  | [] => true
  | [(_, v)] => decide (v ≠ d)
  | (j, v) :: (k, w) :: r => decide (j < k) && decide (v ≠ d) && Tab.wf d ((k, w) :: r)

/-- The keys of a table. -/
def tkeys {α : Type} (t : Tab α) : List Nat := t.map (·.1)

/-- Applies `f` to the entry at key `k`. -/
def tmod {α : Type} (d : α) (t : Tab α) (k : Nat) (f : α → α) : Tab α := fput t k (f (tget d t k))

/-! ### Bytes (R5) -/

/-- The number that bytes spell, lowest address first. -/
def leNat : List Byte → Nat
  | [] => 0
  | b :: r => b.toNat + 256 * leNat r

/-- The `k` low bytes of a number, lowest address first. -/
def natLe : Nat → Nat → List Byte
  | 0, _ => []
  | k + 1, x => BitVec.ofNat 8 x :: natLe k (x / 256)

/-- Bytes [o, o + k) of a list as a number; bytes beyond its end read as 0. -/
def le (bs : List Byte) (o k : Nat) : Nat := leNat ((bs.drop o).take k)

/-- Whether bytes [o, o + k) of a list are all 0. -/
def zeros (bs : List Byte) (o k : Nat) : Bool := ((bs.drop o).take k).all (· == 0)

/-- Bits [hi:lo] of a number (R4). -/
def bits (x hi lo : Nat) : Nat := (x >>> lo) % 2 ^ (hi + 1 - lo)

/-- The two's-complement value of the low `w` bits of `x`. -/
def sext (w x : Nat) : Int :=
  let y := x % 2 ^ w
  if w = 0 then 0 else if 2 ^ (w - 1) ≤ y then (y : Int) - (2 ^ w : Nat) else y

/-- The low `w` bits of an integer. -/
def intBits (w : Nat) (x : Int) : Nat := (x % ((2 ^ w : Nat) : Int)).toNat

/-- A list padded with `d` or cut to length `k`. -/
def fit {α : Type} (d : α) (k : Nat) (l : List α) : List α := (l ++ List.replicate (k - l.length) d).take k

/-! ### Rounding -/

/-- `n / d` rounded to nearest, ties to even. -/
def roundEven (n : Int) (d : Nat) : Int :=
  let q := n / (d : Int)
  let r := n % (d : Int)
  if 2 * r < d then q else if 2 * r > d then q + 1 else if q % 2 = 0 then q else q + 1

/-- `x × 2^a` rounded to nearest, ties to even, for any integer shift. -/
def shiftEven (x a : Int) : Int :=
  if 0 ≤ a then x * (2 ^ a.toNat : Nat) else roundEven x (2 ^ (-a).toNat)

/-- `⌊x × 2^a⌋`. -/
def shiftFloor (x a : Int) : Int :=
  if 0 ≤ a then x * (2 ^ a.toNat : Nat) else x / ((2 ^ (-a).toNat : Nat) : Int)

/-- `n` limited to [lo, hi]. -/
def clampInt (lo hi n : Int) : Int := if n < lo then lo else if n > hi then hi else n

/-- `⌈a / b⌉`. -/
def ceilDiv (a b : Nat) : Nat := (a + b - 1) / b

/-- The sum of a list of integers. -/
def sumInt (l : List Int) : Int := l.foldl (· + ·) 0

/-- The largest of `d` and the integers of a list. -/
def maxInt (d : Int) (l : List Int) : Int := l.foldl max d

/-- Serial-number distance a − b of `w`-bit numbers, in [−2^(w−1), 2^(w−1) − 1]. -/
def serialDist (w a b : Nat) : Int := sext w (a + 2 ^ w - b % 2 ^ w)

/-! ### CRC-32C -/

/-- One bit of the CRC: the polynomial 0x1EDC_6F41 in reflected form. -/
def crcBit (c : BitVec 32) : BitVec 32 :=
  if c.getLsbD 0 then (c >>> 1) ^^^ 0x82F63B78#32 else c >>> 1

def crcByte (c : BitVec 32) (b : Byte) : BitVec 32 :=
  crcBit (crcBit (crcBit (crcBit (crcBit (crcBit (crcBit (crcBit (c ^^^ b.zeroExtend 32))))))))

/-- CRC-32C of a byte string. PRESUMED: the reflected form, start and final complement of the CRC that bears this name
(log entry 5); the spec gives the polynomial. -/
def crc32c (bs : List Byte) : BitVec 32 := (bs.foldl crcByte 0xFFFFFFFF#32) ^^^ 0xFFFFFFFF#32

/-! ### Registers -/

/-- A 64-bit counter raised by `k`, modulo 2^64. -/
def addC (c : BitVec 64) (k : Nat) : BitVec 64 := c + BitVec.ofNat 64 k

/-- A write-1-to-clear field: bits of `mask` that `v` writes as 1 are cleared (R7). -/
def w1c {w : Nat} (r mask v : BitVec w) : BitVec w := r &&& ~~~ (v &&& mask)

/-- Sets bit `i`. -/
def setB {w : Nat} (r : BitVec w) (i : Nat) : BitVec w := r ||| (1#w <<< i)

/-- A register whose bits [31:16] hold a last status. -/
def setLast (r : BitVec 32) (st : Status) : BitVec 32 :=
  (r &&& 0x0000FFFF#32) ||| (st.zeroExtend 32 <<< 16)

def b2n (b : Bool) : Nat := if b then 1 else 0

/-- The class of a status (R12). -/
def statusClass (st : Status) : Nat := st.toNat / 256

/-- A status of class 0x00 means that the operation is complete (R13). -/
def statusOk (st : Status) : Bool := statusClass st == 0

end Sys2Proof.Machine
end

