-- ==== Sys2Proof/Machine/Formats.lean ====
section
/-!
DEFINITION. The number formats of "Number Formats and Scaling": quintets and strips (R26 to R35), packed blocks in
both element orders (R36 to R42, R105), LNS16 and its arithmetic (R45 to R52, R136), the rounding of the drain and of
the pack operation (R54 to R57), the generators (R59), and sum blocks with the memory-side adder (R166 to R170).
-/

namespace Sys2Proof.Machine

def fplusTab0 : List Int := [
   2048, 1985, 1923, 1862, 1803, 1745, 1689, 1634, 1580, 1528, 1477, 1427, 1379, 1332, 1286, 1241,
   1198, 1156, 1115, 1075, 1037, 1000, 964, 928, 894, 862, 830, 799, 769, 740, 712, 685]
def fplusTab1 : List Int := [
   659, 634, 610, 586, 564, 542, 521, 501, 481, 462, 444, 426, 409, 393, 378, 363,
   348, 334, 321, 308, 295, 283, 272, 261, 250, 240, 230, 221, 212, 203, 195, 187]
def fplusTab2 : List Int := [
   179, 172, 165, 158, 151, 145, 139, 133, 128, 122, 117, 112, 108, 103, 99, 95,
   91, 87, 83, 80, 77, 73, 70, 67, 65, 62, 59, 57, 54, 52, 50, 48]
def fplusTab3 : List Int := [
   46, 44, 42, 40, 39, 37, 35, 34, 32, 31, 30, 29, 27, 26, 25, 24,
   23, 22, 21, 20, 19, 19, 18, 17, 16, 16, 15, 14, 14, 13, 13, 12]
def fplusTab4 : List Int := [
   12, 11, 11, 10, 10, 9, 9, 9, 8, 8, 7, 7, 7, 7, 6, 6,
   6, 6, 5, 5, 5, 5, 4, 4, 4, 4, 4, 4, 3, 3, 3, 3]
def fplusTab5 : List Int := [
   3, 3, 3, 3, 2, 2, 2, 2, 2, 2, 2, 2, 2, 2, 2, 2,
   1, 1, 1, 1, 1, 1, 1, 1, 1, 1, 1, 1, 1, 1, 1, 1]
def fplusTab6 : List Int := [
   1, 1, 1, 1, 1, 1, 1, 1, 1, 0, 0, 0, 0, 0, 0, 0,
   0, 0, 0, 0, 0, 0, 0, 0, 0, 0, 0, 0, 0, 0, 0, 0]
def fplusTab7 : List Int := [
   0, 0, 0, 0, 0, 0, 0, 0, 0, 0, 0, 0, 0, 0, 0, 0,
   0, 0, 0, 0, 0, 0, 0, 0, 0, 0, 0, 0, 0, 0, 0, 0]
/-- FPLUS[k], k in [0, 255], in units of 2^−11 (R49). -/
def fplusTab : List Int := fplusTab0 ++ fplusTab1 ++ fplusTab2 ++ fplusTab3 ++ fplusTab4 ++ fplusTab5 ++ fplusTab6 ++ fplusTab7

def fminusTab0 : List Int := [
   -17471, -9339, -7354, -6219, -5431, -4834, -4357, -3962, -3628, -3340, -3089, -2866, -2668, -2489, -2328, -2182,
   -2048, -1925, -1812, -1708, -1612, -1522, -1439, -1361, -1289, -1221, -1158, -1098, -1042, -990, -941, -894]
def fminusTab1 : List Int := [
   -850, -809, -769, -732, -697, -664, -633, -603, -575, -548, -523, -498, -475, -454, -433, -413,
   -395, -377, -360, -344, -328, -313, -299, -286, -273, -261, -250, -239, -228, -218, -209, -199]
def fminusTab2 : List Int := [
   -191, -182, -174, -167, -160, -153, -146, -140, -134, -128, -122, -117, -112, -107, -102, -98,
   -94, -90, -86, -82, -79, -75, -72, -69, -66, -63, -60, -58, -55, -53, -51, -49]
def fminusTab3 : List Int := [
   -47, -45, -43, -41, -39, -37, -36, -34, -33, -31, -30, -29, -28, -26, -25, -24,
   -23, -22, -21, -20, -19, -19, -18, -17, -16, -16, -15, -14, -14, -13, -13, -12]
def fminusTab4 : List Int := [
   -12, -11, -11, -10, -10, -9, -9, -9, -8, -8, -7, -7, -7, -7, -6, -6,
   -6, -6, -5, -5, -5, -5, -4, -4, -4, -4, -4, -4, -3, -3, -3, -3]
def fminusTab5 : List Int := [
   -3, -3, -3, -3, -2, -2, -2, -2, -2, -2, -2, -2, -2, -2, -2, -2,
   -1, -1, -1, -1, -1, -1, -1, -1, -1, -1, -1, -1, -1, -1, -1, -1]
def fminusTab6 : List Int := [
   -1, -1, -1, -1, -1, -1, -1, -1, -1, 0, 0, 0, 0, 0, 0, 0,
   0, 0, 0, 0, 0, 0, 0, 0, 0, 0, 0, 0, 0, 0, 0, 0]
def fminusTab7 : List Int := [
   0, 0, 0, 0, 0, 0, 0, 0, 0, 0, 0, 0, 0, 0, 0, 0,
   0, 0, 0, 0, 0, 0, 0, 0, 0, 0, 0, 0, 0, 0, 0, 0]
/-- FMINUS[k], k in [0, 255], in units of 2^−11 (R49). -/
def fminusTab : List Int := fminusTab0 ++ fminusTab1 ++ fminusTab2 ++ fminusTab3 ++ fminusTab4 ++ fminusTab5 ++ fminusTab6 ++ fminusTab7

def exp2Tab0 : List Nat := [
   16777216, 16822704, 16868315, 16914049, 16959908, 17005891, 17051999, 17098231, 17144589, 17191073, 17237683, 17284419, 17331282, 17378271, 17425389, 17472634,
   17520007, 17567508, 17615139, 17662898, 17710787, 17758806, 17806955, 17855235, 17903645, 17952187, 18000860, 18049665, 18098603, 18147673, 18196877, 18246213]
def exp2Tab1 : List Nat := [
   18295684, 18345288, 18395028, 18444902, 18494911, 18545056, 18595336, 18645753, 18696307, 18746998, 18797826, 18848792, 18899897, 18951139, 19002521, 19054042,
   19105703, 19157504, 19209445, 19261527, 19313750, 19366115, 19418622, 19471271, 19524063, 19576998, 19630077, 19683300, 19736666, 19790178, 19843835, 19897637]
def exp2Tab2 : List Nat := [
   19951585, 20005679, 20059920, 20114308, 20168843, 20223526, 20278358, 20333338, 20388467, 20443746, 20499175, 20554754, 20610483, 20666364, 20722396, 20778580,
   20834917, 20891406, 20948048, 21004844, 21061794, 21118898, 21176158, 21233572, 21291142, 21348868, 21406751, 21464790, 21522987, 21581342, 21639855, 21698527]
def exp2Tab3 : List Nat := [
   21757357, 21816348, 21875498, 21934808, 21994279, 22053912, 22113706, 22173663, 22233781, 22294063, 22354509, 22415118, 22475891, 22536830, 22597933, 22659202,
   22720638, 22782240, 22844009, 22905945, 22968049, 23030322, 23092764, 23155374, 23218155, 23281106, 23344227, 23407520, 23470984, 23534620, 23598429, 23662411]
def exp2Tab4 : List Nat := [
   23726566, 23790896, 23855399, 23920078, 23984932, 24049962, 24115168, 24180550, 24246111, 24311848, 24377765, 24443859, 24510133, 24576587, 24643221, 24710036,
   24777031, 24844209, 24911568, 24979110, 25046835, 25114744, 25182837, 25251115, 25319578, 25388226, 25457060, 25526081, 25595290, 25664686, 25734270, 25804042]
def exp2Tab5 : List Nat := [
   25874004, 25944156, 26014497, 26085030, 26155754, 26226669, 26297777, 26369077, 26440571, 26512259, 26584141, 26656218, 26728490, 26800958, 26873623, 26946485,
   27019544, 27092802, 27166258, 27239913, 27313768, 27387823, 27462079, 27536536, 27611195, 27686057, 27761121, 27836389, 27911861, 27987538, 28063420, 28139508]
def exp2Tab6 : List Nat := [
   28215802, 28292302, 28369011, 28445927, 28523052, 28600385, 28677929, 28755683, 28833647, 28911823, 28990211, 29068811, 29147625, 29226652, 29305894, 29385350,
   29465022, 29544910, 29625014, 29705336, 29785875, 29866633, 29947609, 30028805, 30110222, 30191859, 30273717, 30355798, 30438101, 30520627, 30603377, 30686351]
def exp2Tab7 : List Nat := [
   30769550, 30852975, 30936625, 31020503, 31104608, 31188941, 31273503, 31358294, 31443315, 31528567, 31614049, 31699764, 31785710, 31871890, 31958304, 32044951,
   32131834, 32218952, 32306307, 32393898, 32481727, 32569794, 32658099, 32746645, 32835430, 32924456, 33013723, 33103232, 33192984, 33282979, 33373219, 33463703]
/-- 2^(k/256), k in [0, 255], with 24 fraction bits (R56). -/
def exp2Tab : List Nat := exp2Tab0 ++ exp2Tab1 ++ exp2Tab2 ++ exp2Tab3 ++ exp2Tab4 ++ exp2Tab5 ++ exp2Tab6 ++ exp2Tab7

/-! ### Quintets and strips -/

/-- The five trits of a legal quintet byte, row order (R26). -/
def quintet (b : Nat) : List Int :=
  [b % 3, b / 3 % 3, b / 9 % 3, b / 27 % 3, b / 81 % 3].map fun d => if d = 0 then 0 else if d = 1 then 1 else -1

/-- The byte that holds five trits (R26). -/
def quintetByte (t : List Int) : Byte :=
  BitVec.ofNat 8 ((fit 0 5 t).foldr (fun x a => (if x = 0 then 0 else if x = 1 then 1 else 2) + 3 * a) 0)

/-- A physical column as a plane holds it: 512 trits, 512 owner bits, and the exponents of its sub-blocks (R73, R74,
R112). A ternary column has one group exponent. -/
structure Column where
  trits  : List Int
  owners : List Bool
  exps   : List Int
  deriving DecidableEq, Repr

/-- The trits of a strip, rows [0, 511] (R28). -/
def stripTrits (bs : List Byte) : List Int := ((bs.take 103).flatMap fun b => quintet b.toNat).take 512

/-- The owner bits of a merged strip (R31). -/
def stripOwners (bs : List Byte) : List Bool :=
  (fit 0 64 ((bs.drop 104).take 64)).flatMap fun b => (List.range 8).map fun i => b.getLsbD i

/-- The column that a strip fills (R28 to R32). -/
def stripColumn (merged : Bool) (bs : List Byte) : Column :=
  { trits := fit 0 512 (stripTrits bs),
    owners := if merged then stripOwners bs else List.replicate 512 false,
    exps := [sext 7 (le bs 103 1)] }

/-- The position of the first byte at or after `o` that satisfies `p`. -/
def findByte (p : Byte → Bool) : List Byte → Nat → Option Nat
  | [], _ => none
  | b :: r, o => if p b then some o else findByte p r (o + 1)

/-- The format checks of a strip (R27, R29, R30; the first three of R85): the status and the offset of the faulting
byte. -/
def stripFormat (bs : List Byte) : Option (Status × Nat) :=
  match findByte (fun b => decide (242 < b.toNat)) (bs.take 103) 0 with
  | some o => some (0x0310#16, o)
  | none =>
    if 8 < le bs 102 1 then some (0x0311#16, 102)
    else if 128 ≤ le bs 103 1 then some (0x0312#16, 103) else none

/-- The checks of a merged strip against its count word (R85, checks 4 to 8): the status, and the offset of the
faulting byte of the strip, or none when the count word is at fault. -/
def mergedChecks (blk : Bool) (bs : List Byte) (cw : Nat) : Option (Status × Option Nat) :=
  let nzA := bits cw 9 0
  let nzB := bits cw 19 10
  let rows := (stripTrits bs).zip (stripOwners bs)
  let badZero := ((List.range 512).zip rows).find? fun r => r.2.1 == 0 && r.2.2
  let mixed := (List.range 64).find? fun m =>
    let g := (rows.drop (8 * m)).take 8
    g.any (fun r => r.1 != 0 && r.2) && g.any (fun r => r.1 != 0 && !r.2)
  if bits cw 31 20 ≠ 0 ∨ 512 < nzA ∨ 512 < nzB ∨ 512 < nzA + nzB then some (0x0323#16, none)
  else match badZero with
  | some r => some (0x0320#16, some (104 + r.1 / 8))
  | none =>
    if (rows.filter fun r => r.1 != 0 && !r.2).length ≠ nzA then some (0x0321#16, none)
    else if (rows.filter fun r => r.1 != 0 && r.2).length ≠ nzB then some (0x0322#16, none)
    else match blk, mixed with
    | true, some m => some (0x0324#16, some (104 + m))
    | _, _ => none

/-! ### Packed blocks -/

/-- A packed-block header (R38). -/
structure Hdr where
  u   : Bool
  z   : Bool
  sat : Bool
  b60 : Bool
  w   : Nat
  es  : List Int
  deriving DecidableEq, Repr

/-- The header that 8 bytes hold. -/
def hdrOf (bs : List Byte) : Hdr :=
  let h := le bs 0 8
  { u := bits h 63 63 == 1, z := bits h 62 62 == 1, sat := bits h 61 61 == 1, b60 := bits h 60 60 == 1,
    w := bits h 59 56, es := (List.range 8).map fun j => sext 7 (h >>> (7 * j)) }

/-- The 8 bytes of a header. -/
def hdrBytes (h : Hdr) : List Byte :=
  natLe 8 (b2n h.u <<< 63 + b2n h.z <<< 62 + b2n h.sat <<< 61 + b2n h.b60 <<< 60 + h.w <<< 56
    + ((List.range 8).zip h.es).foldl (fun a p => a + intBits 7 p.2 <<< (7 * p.1)) 0)

/-- Checks 1 and 2 of R41. -/
def hdrCheck12 (h : Hdr) : Option Status :=
  if h.w = 0 ∨ 9 ≤ h.w then some 0x0313#16
  else if h.b60 ∨ (h.w = 1 ∧ h.u = false) then some 0x0315#16 else none

/-- The header checks of a consumer, in order (R41). -/
def hdrCheck (pitch : Nat) (h : Hdr) : Option Status :=
  match hdrCheck12 h with
  | some st => some st
  | none => if pitch < h.w then some 0x0314#16 else none

/-- The integer of `w` raw bits (R36). -/
def elemVal (u : Bool) (w x : Nat) : Int := if u then (x : Int) else sext w x

/-- The raw bits of element `i` of a payload, element-major (R39). -/
def rawElem (w : Nat) (pl : List Byte) (i : Nat) : Nat :=
  (le pl (w * i / 8) 2 >>> (w * i % 8)) % 2 ^ w

/-- The raw bits of element `i` of a payload, plane-major (R105). -/
def rawPlane (w : Nat) (pl : List Byte) (i : Nat) : Nat :=
  (List.range w).foldl (fun a k => a + ((le pl (64 * k + i / 8) 1 >>> (i % 8)) % 2) <<< k) 0

/-- The 512 integers of a block (R36, R39, R40, R105). -/
def blockElems (plane : Bool) (h : Hdr) (pl : List Byte) : List Int :=
  if h.z then List.replicate 512 0
  else (List.range 512).map fun i =>
    elemVal h.u h.w (if plane then rawPlane h.w pl i else rawElem h.w pl i)

/-- The bytes of a number of bits laid end to end, `w` bits an element. -/
def packBits (w : Nat) : List Nat → List Byte
  | xs => natLe (xs.length * w / 8) (xs.foldr (fun x a => x % 2 ^ w + a <<< w) 0)

/-- The payload that holds 512 integers in either order (R39, R105). Eight elements fill `w` bytes. -/
def blockPayload (plane : Bool) (w : Nat) (qs : List Int) : List Byte :=
  let raw := (fit 0 512 qs).map (intBits w)
  if plane then (List.range w).flatMap fun k => packBits 1 (raw.map fun x => x >>> k)
  else (List.range 64).flatMap fun g => packBits w ((raw.drop (8 * g)).take 8)

/-- The size of a block of width `w` (R37). -/
def burst (w : Nat) : Nat := 64 * w + 8

/-! ### Flags of arithmetic (R47, R54) -/

/-- What an operation adds to the trouble flags and counters of R70 and R71. -/
structure FmtEv where
  lsat  : Nat := 0
  lufl  : Nat := 0
  divz  : Bool := false
  psat  : Nat := 0
  pufl  : Nat := 0
  elems : Nat := 0
  deriving DecidableEq, Repr

def FmtEv.add (a b : FmtEv) : FmtEv :=
  { lsat := a.lsat + b.lsat, lufl := a.lufl + b.lufl, divz := a.divz || b.divz, psat := a.psat + b.psat,
    pufl := a.pufl + b.pufl, elems := a.elems + b.elems }

/-- The bits of STN_FMT_STATUS that an event sets (R70). -/
def FmtEv.flags (e : FmtEv) : BitVec 32 :=
  BitVec.ofNat 32 (b2n (0 < e.pufl) * 16 + b2n (0 < e.psat) * 8 + b2n e.divz * 4 + b2n (0 < e.lufl) * 2
    + b2n (0 < e.lsat))

/-! ### LNS16 -/

def lnsZero : Lns := 0x4000#16

/-- L of a word (R45). -/
def lnsL (a : Lns) : Int := sext 15 a.toNat

def lnsSign (a : Lns) : Bool := a.getLsbD 15

/-- The words 0x4000 and 0xC000 read as zero (R46). -/
def lnsIsZero (a : Lns) : Bool := lnsL a == -16384

/-- The word of a sign and an L that is in range. -/
def lnsMk (neg : Bool) (l : Int) : Lns := BitVec.ofNat 16 (b2n neg * 32768 + intBits 15 l)

/-- A result with saturation and underflow (R47). -/
def lnsOf (neg : Bool) (l : Int) : Lns × FmtEv :=
  if 16383 < l then (lnsMk neg 16383, { lsat := 1 })
  else if l < -16383 then (lnsZero, { lufl := 1 }) else (lnsMk neg l, {})

def lnsMul (a b : Lns) : Lns × FmtEv :=
  if lnsIsZero a || lnsIsZero b then (lnsZero, {})
  else lnsOf (xor (lnsSign a) (lnsSign b)) (lnsL a + lnsL b)

def lnsDiv (a b : Lns) : Lns × FmtEv :=
  if lnsIsZero b then
    (if lnsIsZero a then lnsZero else lnsMk (xor (lnsSign a) (lnsSign b)) 16383, { divz := true })
  else if lnsIsZero a then (lnsZero, {})
  else lnsOf (xor (lnsSign a) (lnsSign b)) (lnsL a - lnsL b)

/-- The word read as a zero code becomes 0x4000; every other word is itself. -/
def lnsCanon (a : Lns) : Lns := if lnsIsZero a then lnsZero else a

/-- The correction of R50 in units of 2^−15 of L's unit of log₂, times 1: `16·T[k] + (T[k+1] − T[k])·φ`. -/
def lnsCorr (tab : List Int) (d : Nat) : Int :=
  if 4096 ≤ d then 0
  else
    let k := d / 16
    let t0 := tab.getD k 0
    16 * t0 + (tab.getD (k + 1) 0 - t0) * (d % 16 : Nat)

/-- The sum of R48 with the correction table of R49 and R50. A zero operand gives the other operand, which is written
as 0x4000 when it is a zero code (R46). -/
def lnsAdd (a b : Lns) : Lns × FmtEv :=
  if lnsIsZero a then (lnsCanon b, {})
  else if lnsIsZero b then (lnsCanon a, {})
  else
    let big := if lnsL b ≤ lnsL a then a else b
    let d := (lnsL a - lnsL b).natAbs
    let lm := lnsL big
    if lnsSign a == lnsSign b then lnsOf (lnsSign a) (roundEven (lm * 128 + lnsCorr fplusTab d) 128)
    else if d = 0 then (lnsZero, {})
    else lnsOf (lnsSign big) (roundEven (lm * 128 + lnsCorr fminusTab d) 128)

/-- The sign inverted; zero stays 0x4000 (R243, VNEG). -/
def lnsNeg (a : Lns) : Lns := if lnsIsZero a then lnsZero else a ^^^ 0x8000#16

def lnsSub (a b : Lns) : Lns × FmtEv := lnsAdd a (lnsNeg b)

/-- A number that orders words by value (R244). -/
def lnsKey (a : Lns) : Int :=
  if lnsIsZero a then 0 else if lnsSign a then -(lnsL a + 16384) else lnsL a + 16384

def lnsGe (a b : Lns) : Bool := decide (lnsKey b ≤ lnsKey a)

/-- round(256 × log₂ k) for a positive integer k (R52, R182). -/
def logTab (k : Nat) : Int := ((k ^ 512).log2 + 1) / 2

/-- An element of a packed block as an LNS16 word (R52). -/
def lnsOfElem (q e : Int) (s : Lns) : Lns × FmtEv :=
  if q = 0 ∨ lnsIsZero s then (lnsZero, {})
  else lnsOf (xor (decide (q < 0)) (lnsSign s)) (logTab q.natAbs + 256 * e + lnsL s)

/-- 2^(L / 256) with 24 fraction bits, scaled by 2^p and rounded to the nearest integer, ties to even. -/
def exp2Scaled (l p : Int) : Int :=
  shiftEven (exp2Tab.getD (l % 256).toNat 0) (l / 256 + p - 24)

/-- EXP2 (R136): a word whose L is 256 × value, from the table of R56. -/
def lnsExp2 (t : Lns) : Lns × FmtEv :=
  if lnsIsZero t then (0x0000#16, {})
  else
    let l := lnsL t
    let m := exp2Scaled l 8
    if lnsSign t then (if m ≤ 16383 then (lnsMk false (-m), {}) else (lnsZero, {}))
    else if m ≤ 16383 then (lnsMk false m, {}) else (lnsMk false 16383, { lsat := 1 })

/-! ### Generators -/

/-- One step of a generator, which is also its output (R59). -/
def genStep (s : BitVec 64) : BitVec 64 :=
  let a := s ^^^ (s <<< 13)
  let b := a ^^^ (a >>> 7)
  b ^^^ (b <<< 17)

/-- The four 16-bit words of an output, first to last (R57). -/
def ditherWords (x : BitVec 64) : List Nat := (List.range 4).map fun k => (x.toNat >>> (16 * k)) % 65536

/-- `k` further states of a generator. -/
def genRun : Nat → BitVec 64 → List (BitVec 64)
  | 0, _ => []
  | k + 1, s => let s' := genStep s; s' :: genRun k s'

/-! ### Requantisation -/

/-- Qmax (R54). -/
def qmaxOf (uns : Bool) (w : Nat) : Int := if uns then 2 ^ w - 1 else 2 ^ (w - 1) - 1

/-- The least integer s in [lo, lo + fuel] for which `p s` holds, or lo + fuel. -/
def leastInt (p : Int → Bool) : Nat → Int → Int
  | 0, lo => lo
  | f + 1, lo => if p lo then lo else leastInt p f (lo + 1)

/-- Rounds one drained element with shift s and dither word r (R55). -/
def drainRound (a s : Int) (r : Nat) : Int :=
  if s ≤ 0 then a * (2 ^ (-s).toNat : Nat)
  else if s ≤ 16 then (a * (2 ^ (16 - s).toNat : Nat) + r) / 65536
  else (a + (r : Int) * (2 ^ (s - 16).toNat : Nat)) / ((2 ^ s.toNat : Nat) : Int)

/-- The exponent and the elements of one requantised sub-block, with the clipped count and whether the exponent was
held at its lower end. -/
structure SubBlock where
  e      : Int
  qs     : List Int
  clips  : Nat
  ufl    : Bool
  deriving DecidableEq, Repr

/-- Whether |a| exceeds Qmax × 2^s (R54). -/
def overBound (qm s a : Int) : Bool :=
  if 0 ≤ s then decide (qm * (2 ^ s.toNat : Nat) < (a.natAbs : Int)) else decide (qm < (a.natAbs : Int) * (2 ^ (-s).toNat : Nat))

/-- One sub-block of a drain (R54, R55): `lo` and `hi` bound the exponent (−64 and +63 for DRAIN, −128 and +127 for
DRED, R168). -/
def drainSub (lo hi : Int) (uns : Bool) (qm d : Int) (as : List Int) (rs : List Nat) : SubBlock :=
  let vs := as.map fun a => if uns && decide (a < 0) then 0 else a
  if vs.all (· == 0) then { e := lo, qs := vs, clips := 0, ufl := false }
  else
    -- the smallest s with |a| ≤ Qmax × 2^s; a 40-bit accumulator needs s in [−24, 40]
    let s0 := leastInt (fun s => vs.all fun a =>
      if 0 ≤ s then decide ((a.natAbs : Int) ≤ qm * (2 ^ s.toNat : Nat))
      else decide ((a.natAbs : Int) * (2 ^ (-s).toNat : Nat) ≤ qm)) 80 (-40)
    let e0 := d + s0
    let e := clampInt lo hi e0
    let s := e - d
    let overrun (a : Int) : Bool := decide (hi < e0) && overBound qm s a
    { e := e,
      qs := (vs.zip rs).map fun p => if overrun p.1 then (if p.1 < 0 then -qm else qm) else drainRound p.1 s p.2,
      clips := (vs.filter overrun).length,
      ufl := decide (e0 < lo) }

/-- m_i(e): 2^(L'/256 − e) in units of 2^−16, truncated, from the table of R56. -/
def packMag (l' e : Int) : Int :=
  shiftFloor (exp2Tab.getD (l' % 256).toNat 0) (l' / 256 - e - 8)

/-- One sub-block of a pack operation (R54, R56). -/
def packSub (uns : Bool) (qm : Int) (sout : Lns) (xs : List Lns) (rs : List Nat) : SubBlock :=
  let neg (x : Lns) : Bool := xor (lnsSign x) (lnsSign sout)
  let dead (x : Lns) : Bool := lnsIsZero x || (uns && neg x)
  let live := xs.filter fun x => !dead x
  if live.isEmpty then { e := -64, qs := xs.map fun _ => 0, clips := 0, ufl := false }
  else
    let zs := lnsIsZero sout
    let lp (x : Lns) : Int := lnsL x - lnsL sout
    let top := maxInt (-40000) (live.map lp)
    -- qm < 2^8, so the exponent lies within 10 of the largest L'/256
    let e0 := if zs then 64 else
      leastInt (fun e => live.all fun x => decide (packMag (lp x) e ≤ qm * 65536)) 24 (top / 256 - 12)
    let e := clampInt (-64) 63 e0
    let overrun (x : Lns) : Bool := !dead x && decide (63 < e0) && (zs || decide (qm * 65536 < packMag (lp x) 63))
    { e := e,
      qs := (xs.zip rs).map fun p =>
        if dead p.1 then 0
        else if overrun p.1 then (if neg p.1 then -qm else qm)
        else
          let m := packMag (lp p.1) e
          ((if neg p.1 then -m else m) + p.2) / 65536,
      clips := (xs.filter overrun).length,
      ufl := decide (e0 < -64) }

/-- The block of eight sub-blocks of width w (R38, R54): its bytes and what it adds to the flags and counters. -/
def blockOf (plane uns : Bool) (w : Nat) (sbs : List SubBlock) : List Byte × FmtEv :=
  let qs : List Int := sbs.flatMap (·.qs)
  let clips := (sbs.map (·.clips)).sum
  let h : Hdr := { u := uns, z := qs.all (· == 0), sat := decide (0 < clips), b60 := false, w := w,
                   es := sbs.map (·.e) }
  (hdrBytes h ++ blockPayload plane w qs,
   { psat := clips, pufl := (sbs.filter (·.ufl)).length, elems := 512 })

/-- Cuts a list into `k` pieces of `n`. -/
def chunks {α : Type} (n : Nat) : Nat → List α → List (List α)
  | 0, _ => []
  | k + 1, l => l.take n :: chunks n k (l.drop n)

/-- A drained packed block (R54 to R57). -/
def drainBlock (plane uns : Bool) (w : Nat) (d : Int) (as : List Int) (rs : List Nat) : List Byte × FmtEv :=
  blockOf plane uns w (((chunks 64 8 as).zip (chunks 64 8 rs)).map fun p =>
    drainSub (-64) 63 uns (qmaxOf uns w) d p.1 p.2)

/-- A packed block of LNS16 values (R54, R56, R57). A zero Sout sets LNS_DIVZ. -/
def packBlock (plane uns : Bool) (w : Nat) (sout : Lns) (xs : List Lns) (rs : List Nat) : List Byte × FmtEv :=
  let r := blockOf plane uns w (((chunks 64 8 xs).zip (chunks 64 8 rs)).map fun p =>
    packSub uns (qmaxOf uns w) sout p.1 p.2)
  (r.1, { r.2 with divz := lnsIsZero sout })

/-! ### Sum blocks -/

/-- A sum block as eight sub-blocks of an exponent and 64 mantissas (R166). -/
abbrev SumBlock := List (Int × List Int)

def sumBlockOf (bs : List Byte) : SumBlock :=
  (List.range 8).map fun j =>
    (sext 8 (le bs j 1), (List.range 64).map fun i => sext 24 (le bs (8 + 3 * (64 * j + i)) 3))

def sumBlockBytes (b : SumBlock) : List Byte :=
  b.map (fun p => BitVec.ofNat 8 (intBits 8 p.1)) ++ b.flatMap fun p => p.2.flatMap fun m => natLe 3 (intBits 24 m)

/-- The sum block that a DRED sends (R168), with the number of clipped mantissas. -/
def dredBlock (d : Int) (as : List Int) (rs : List Nat) : List Byte × Nat :=
  let sbs := ((chunks 64 8 as).zip (chunks 64 8 rs)).map fun p => drainSub (-128) 127 false (2 ^ 23 - 1) d p.1 p.2
  (sumBlockBytes (sbs.map fun b => (b.e, b.qs)), (sbs.map (·.clips)).sum)

/-- The memory-side adder on one sub-block (R169): the new sub-block and whether it saturated. -/
def adderSub (st inc : Int × List Int) : (Int × List Int) × Bool :=
  if inc.2.all (· == 0) then (st, false)
  else if st.2.all (· == 0) then (inc, false)
  else
    let e := max inc.1 st.1
    let sh (p : Int × List Int) := p.2.map fun m => roundEven m (2 ^ (e - p.1).toNat)
    let sums := ((sh st).zip (sh inc)).map fun p => p.1 + p.2
    let qm : Int := 2 ^ 23 - 1
    if sums.all fun m => decide (-(2 ^ 23) ≤ m ∧ m ≤ qm) then ((e, sums), false)
    else if e < 127 then ((e + 1, sums.map fun m => roundEven m 2), false)
    else ((127, sums.map fun m => clampInt (-qm) qm m), true)

/-- The memory-side adder on a block. -/
def adderBlock (st inc : List Byte) : List Byte × Bool :=
  let rs := ((sumBlockOf st).zip (sumBlockOf inc)).map fun p => adderSub p.1 p.2
  (sumBlockBytes (rs.map (·.1)), rs.any (·.2))

/-- The Datum and output A that a DFILL gives (R170). -/
def dfillSet (bs : List Byte) : Int × List Int :=
  let b := sumBlockOf bs
  let d := clampInt (-128) 127 (maxInt (-200) (b.map (·.1)) - 16)
  (d, b.flatMap fun p => p.2.map fun m => shiftEven m (p.1 - d))

/-! ### Bit-serial planes -/

/-- The effective width of the elements that a load reads (R108). -/
def effWidth (h : Hdr) (qs : List Int) : Nat :=
  if h.z || qs.all (· == 0) then 0
  else if h.u then (leastInt (fun v => qs.all fun q => decide (q < (2 ^ v.toNat : Nat))) 8 1).toNat
  else (leastInt (fun v => qs.all fun q => decide (-(2 ^ (v.toNat - 1) : Nat) ≤ q ∧ q < (2 ^ (v.toNat - 1) : Nat)))
    h.w 1).toNat

/-- The trit of element `q` at pass `k` (R109). -/
def passTrit (u : Bool) (w' k : Nat) (q : Int) : Int :=
  if u then (if k < w' then (intBits 8 q / 2 ^ k % 2 : Nat) else 0)
  else if k + 1 < w' then ((intBits 8 q / 2 ^ k % 2 : Nat) : Int)
  else if k + 1 = w' then (if q < 0 then -1 else 0) else 0

end Sys2Proof.Machine
end

