-- ==== Sys2Proof/Machine/StationState.lean ====
section
/-!
DEFINITION. The state of one Station and of the task it runs: "The Trit Array", "Bit-Serial Passes", "Accumulators",
"Recon", "The Station and Its Programs" and the descriptor of "Task Graphs and Dispatch". Plain data.
-/

namespace Sys2Proof.Machine

/-! ### Descriptors, handles and generator entries (R264 to R271) -/

/-- A handle as its 16 bytes give it (R268). `rsv` says that a reserved field is not 0. -/
structure Handle where
  scratch : Bool
  base    : Nat
  scale   : Lns
  pitch   : Nat
  plane   : Bool
  hkind   : Nat
  out     : Bool
  nblk    : Nat
  rsv     : Bool
  deriving DecidableEq, Repr

/-- A generator entry (R270). -/
structure GenEntry where
  seed  : Nat
  group : Nat
  role  : Nat
  gen   : Nat
  rsv   : Bool
  deriving DecidableEq, Repr

/-- A task descriptor (R264). `rsv` says that a reserved field is not 0; `succs` holds all 16 successor entries. -/
structure Desc where
  dver     : Nat
  kind     : Nat
  parcel   : Nat
  retain   : Bool
  relaxed  : Bool
  stmask   : Nat
  facet    : Nat
  nh       : Nat
  prog     : Nat
  htab     : Nat
  gtab     : Nat
  depd     : Nat
  dept     : Nat
  taskid   : Nat
  nsucc    : Nat
  ngen     : Nat
  deadline : Nat
  serial   : Nat
  owner    : Nat
  ownkind  : Nat
  tgen     : Nat
  succs    : List Nat
  rsv      : Bool
  deriving DecidableEq, Repr

def Desc.empty : Desc :=
  { dver := 0, kind := 0, parcel := 0, retain := false, relaxed := false, stmask := 0, facet := 0, nh := 0, prog := 0,
    htab := 0, gtab := 0, depd := 0, dept := 0, taskid := 0, nsucc := 0, ngen := 0, deadline := 0, serial := 0,
    owner := 0, ownkind := 0, tgen := 0, succs := [], rsv := false }

/-- The header of a program image (R230). -/
structure Image where
  nb   : Nat
  need : Bool
  port : List Nat
  ilv  : List Nat
  deriving DecidableEq, Repr

def Image.empty : Image := { nb := 0, need := false, port := [], ilv := [] }

/-- The task on a Station: its descriptor, tables and image, and its shares for the completion record (R140, R177,
R263, R288). `endTick` is the tick of its END bundle. `acksOut` lists the atomic adds and frames not yet acknowledged (R172, R376);
`flags` gathers the trouble flags of the task (R69) and `quals` its other success qualifiers (R174). -/
structure Task where
  desc      : Desc
  handles   : List Handle
  gens      : List GenEntry
  image     : Image
  nonce     : BitVec 64
  dispatch  : Nat
  ended     : Bool
  endTick   : Nat
  kat       : Bool
  detect    : Bool
  bspMax    : Nat
  bspTotal  : Nat
  bspDecl   : Nat
  bspOver   : Nat
  replays   : Nat
  holds     : Nat
  frzTier   : Nat
  frzDuty   : Nat
  slip      : Nat
  reruns    : Nat
  flags     : FmtEv
  quals     : List Status
  acksOut   : List Nat
  deriving DecidableEq, Repr

def Task.empty : Task :=
  { desc := .empty, handles := [], gens := [], image := .empty, nonce := 0, dispatch := 0, ended := false, endTick := 0, kat := false,
    detect := false,
    bspMax := 0, bspTotal := 0, bspDecl := 0, bspOver := 0, replays := 0, holds := 0, frzTier := 0, frzDuty := 0,
    slip := 0, reruns := 0, flags := {}, quals := [], acksOut := [] }

/-! ### The array (R73 to R131) -/

/-- The states of a weight plane or of a plane-store bank (R75, R112). -/
inductive Fill where
  | empty | loading | full
  deriving DecidableEq, Repr

/-- What a load fills. -/
inductive LoadKind where
  | dense | merged | bits
  deriving DecidableEq, Repr

/-- A weight plane (R73 to R76). `src` is the number of the load that fills or filled it; columns beyond the list hold
zero trits. -/
structure Plane where
  fill   : Fill
  merged : Bool
  blk    : Bool
  cols   : List Column
  src    : Nat
  scale  : Lns
  deriving DecidableEq, Repr

def Plane.empty : Plane := { fill := .empty, merged := false, blk := false, cols := [], src := 0, scale := 0 }

/-- One source block of a plane-store column: the elements read, U, and the effective width (R108, R114, R115). -/
structure BitBlock where
  u  : Bool
  w' : Nat
  qs : List Int
  es : List Int
  deriving DecidableEq, Repr

/-- A plane-store bank (R112): in pair mode, block n + k of the list is the second block of column k. -/
structure Bank where
  fill   : Fill
  n      : Nat
  pair   : Bool
  blocks : List BitBlock
  passes : List Nat
  scale  : Lns
  deriving DecidableEq, Repr

def Bank.empty : Bank := { fill := .empty, n := 0, pair := false, blocks := [], passes := [], scale := 0 }

/-- A gather descriptor (R194). -/
structure Gather where
  mode    : Nat
  kb      : Nat
  ncol    : Nat
  lista   : Nat
  scratch : Bool
  wbase   : Nat
  wscale  : Lns
  deriving DecidableEq, Repr

/-- A load: its kind and size, the stream register as it stood, its target and its progress (R82, R116). `next` is the
program tick of its next load tick, `done` the number of load ticks taken, `gpos` the number of strips that a gather stream has
emitted before it. `buf` holds the bytes taken for strips or blocks that are not yet complete, by their place among the bytes of the
load, `counts` the count words taken (R84), `fault` what its checks have found in the present tick, whose bundle keeps its
effects (R86). -/
structure Load where
  id     : Nat
  kind   : LoadKind
  n      : Nat
  wstr   : Nat
  blk    : Bool
  cnta   : Nat
  pair   : Bool
  target : Nat
  next   : Nat
  len    : Nat
  done   : Nat
  reg    : BitVec 64
  gather : Option Gather
  gpos   : Nat
  buf    : List (Nat × List Byte)
  counts : List Nat
  fault  : Option (Status × Nat × Nat)
  deriving DecidableEq, Repr

def Load.none : Load :=
  { id := 0, kind := .dense, n := 0, wstr := 0, blk := false, cnta := 0, pair := false, target := 0, next := 0, len := 0,
    done := 0, reg := 0, gather := .none, gpos := 0, buf := [], counts := [], fault := .none }

/-- A product in the adder tree (R89): its slot, the array tick of its issue, its tile (a ternary tile or a BRUN), and
for each accumulator it reaches the eight pairs of sub-block sum and exponent. -/
structure Product where
  slot  : Nat
  u     : Nat
  tile  : Nat
  brun  : Bool
  terms : List (Nat × List (Int × Int))
  deriving DecidableEq, Repr

/-- An AMAC of a tile, as a replay needs it: its slot and where its block was read (R93). -/
structure AmacRec where
  slot   : Nat
  istr   : Nat
  reg    : BitVec 64
  deriving DecidableEq, Repr

/-- A ternary tile (R90): the load that its plane holds and its AMACs in order. -/
structure Tile where
  id    : Nat
  plane : Nat
  src   : Nat
  amacs : List AmacRec
  deriving DecidableEq, Repr

/-- A BRUN whose window is open (R118 to R130). `u` is its array tick of issue, `pass` the number of passes issued,
`vec` the number of vectors that the next pass has issued, `overrun` the ticks of its overrun, `froze` whether that freeze has been taken. -/
structure Brun where
  tile  : Nat
  u     : Nat
  s0    : Nat
  b     : Nat
  bank  : Nat
  add   : Bool
  istr  : Nat
  reg   : BitVec 64
  pe    : Nat
  pass  : Nat
  vec   : Nat
  overrun  : Nat
  froze : Bool
  deriving DecidableEq, Repr

/-- A replay in progress (R93, R131, R159): its slot and tile, the work to be issued again in order (for a ternary tile the
AMACs, for a BRUN the passes), and the array tick of the detection. -/
structure Replay where
  slot  : Nat
  tile  : Nat
  brun  : Bool
  amacs : List AmacRec
  passes : List Nat
  detect : Nat
  deriving DecidableEq, Repr

/-! ### Accumulators (R142 to R177) -/

/-- A slot (R142, R143). Accumulator 2c + o of a set is output o of column c; sets are kept in canonical form with
default 0. The fields from `tile` on describe the tile that fills the active set: what it started from (R147), its
replays (R161) and the array tick of its last product (R151, R153). `src` says where start values come from (0 zero, 1 the shadow set,
2 the shadow set for output B alone), `both` whether the tile's products reach both outputs, `got` whether one has come: an
accumulator takes its start value at its first contribution, or at the closing. -/
structure Slot where
  acc0   : Tab Int
  acc1   : Tab Int
  datum0 : Int
  datum1 : Int
  scale0 : Lns
  scale1 : Lns
  act    : Bool
  di     : Int
  start  : Nat
  isOpen : Bool
  tile   : Nat
  begin  : Tab Int
  beginD : Int
  preStart : Nat
  replays : Nat
  last   : Nat
  named  : Bool
  src    : Nat
  both   : Bool
  got    : Bool
  deriving DecidableEq, Repr

def Slot.clear : Slot :=
  { acc0 := [], acc1 := [], datum0 := 0, datum1 := 0, scale0 := 0, scale1 := 0, act := false, di := 0, start := 0,
    isOpen := false, tile := 0, begin := [], beginD := 0, preStart := 0, replays := 0, last := 0, named := false,
    src := 0, both := false, got := false }

/-- What the drain unit writes (R156). -/
inductive DrainKind where
  | drain | dred
  deriving DecidableEq, Repr

/-- One output of a DRAIN or DRED on its way: due in program tick `due`, its generators drawing in [first, due − 1];
`reg` is its output stream as it stood at the issue, `words` the dither drawn so far. -/
structure DrainJob where
  kind  : DrainKind
  due   : Nat
  first : Nat
  vals  : List Int
  datum : Int
  ostr  : Nat
  reg   : BitVec 64
  words : List Nat
  gb    : Nat
  ng    : Nat
  w     : Nat
  uns   : Bool
  deriving DecidableEq, Repr

/-- A DFILL whose result is not yet visible (R170). -/
structure FillJob where
  due   : Nat
  slot  : Nat
  datum : Int
  vals  : List Int
  scale : Lns
  deriving DecidableEq, Repr

/-! ### Recon (R179 to R203) -/

/-- A parameter block (R186). -/
structure Param where
  addr    : Nat
  kb      : Nat
  tt      : Bool
  wt      : Bool
  rs      : Bool
  n       : Nat
  log2l   : Nat
  mode    : Nat
  guard   : Nat
  audlog  : Nat
  theta   : Lns
  ofs     : Nat
  first   : Nat
  lastn   : Nat
  rbase   : Nat
  ttab    : Nat
  wtab    : Nat
  reca    : Nat
  lista   : Nat
  alista  : Nat
  deriving DecidableEq, Repr

/-- An RPRED or RSEL on its way (R190): its next input block is read in program tick `next`, its draws begin in tick `draw0`
and end before tick `dec0`, its record is written in tick `due`. `reg` is its input stream at the issue; `ins` holds the elements
and exponents of the blocks read so far with Z = 0 blocks told apart, `counts` the counts c and n of its outputs, `decs` the
decision ticks taken, `top` the largest estimates of the groups seen in MODE 2, `skips` the decisions made so far. -/
structure RecJob where
  next   : Nat
  draw0  : Nat
  dec0   : Nat
  due    : Nat
  par    : Param
  tok    : Nat
  sel    : Bool
  reg    : BitVec 64
  ins    : List (Bool × List Int × List Int)
  mags   : List Nat
  total  : Nat
  s1     : Lns
  counts : List (Int × Nat)
  gb     : Nat
  ng     : Nat
  decs   : Nat
  top    : List Lns
  skips  : List Bool
  deriving DecidableEq, Repr

/-- An RFIN whose lists are to be written in program tick `due` (R192), with the outputs of GA drawn so far. -/
structure FinJob where
  due   : Nat
  issue : Nat
  par   : Param
  ntok  : Nat
  ga    : Nat
  words : List (BitVec 64)
  deriving DecidableEq, Repr

/-! ### The Station (R217 to R259) -/

/-- The register a result reaches (R233). -/
inductive Dest where
  | scalar (k : Nat)
  | vector (e k : Nat)
  | vscale (e : Nat)
  | stream (k : Nat)
  deriving DecidableEq, Repr

/-- A result on its way: it reaches its register at the end of program tick `due` (R218). -/
structure Pend where
  due  : Nat
  dest : Dest
  bits : BitVec 64
  vec  : List Lns
  deriving DecidableEq, Repr

/-- One scratchpad access: the tick it falls in (an array tick for port 0, a program tick for the others), the port, the
bank and the line (R222, R225), and the first address it touches there. -/
structure Access where
  tick : Nat
  port : Nat
  bank : Nat
  line : Nat
  addr : Nat
  deriving DecidableEq, Repr

/-- A VPACK on its way (R246): its generators draw in [first, due − 1], and its engine takes a further one from tick
`free`. -/
structure PackJob where
  engine : Nat
  first  : Nat
  free   : Nat
  words  : List Nat
  due    : Nat
  addr   : Nat
  xs     : List Lns
  sout   : Lns
  plane  : Bool
  uns    : Bool
  w      : Nat
  gb     : Nat
  ng     : Nat
  deriving DecidableEq, Repr

/-- A VTERN on its way (R361, R362): its generators draw in [first, last] and L[vd] is written at the end of tick
last + 1. `ws` are the latent weights, `tau` the scale register, `mask` the mask bits. -/
structure TernDraw where
  engine : Nat
  first  : Nat
  last   : Nat
  gb     : Nat
  ng     : Nat
  vd     : Nat
  ws     : List Lns
  tau    : Lns
  mask   : List Bool
  words  : List Nat
  deriving DecidableEq, Repr

/-- A VTSTRIP or VTROW on its way (R362): the strip is written in tick `due`. -/
structure StripJob where
  due   : Nat
  engine : Nat
  addr  : Nat
  bytes : List Byte
  deriving DecidableEq, Repr

/-- A DMA transfer (R248): `done` once it has completed and its tag is free; `banks` are DMA-held until a DWAIT observes
the completion (R228); `moved` is the number of bytes that an MCOPY has copied. -/
structure Dma where
  tag   : Nat
  mop   : Nat
  banks : List Nat
  spa   : Nat
  spb   : Nat
  range : Nat
  len   : Nat
  moved : Nat
  done  : Bool
  deriving DecidableEq, Repr

/-- An open loop (R236): its LOOP's bundle, body length, trips left. -/
structure Loop where
  pc    : Nat
  body  : Nat
  trips : Nat
  deriving DecidableEq, Repr

/-- A fault of a bundle: its status, the address and the indices of the completion record (R288, R289), the unit whose
status register it reaches (0 array or loader, 1 bit-serial, 2 accumulators, 3 Recon, 4 Station, 5 none), the slot that
ACC_STATUS names, and the slots that keep their contents from before the tile (R68). -/
structure Flt where
  st   : Status
  addr : Nat := 0
  idx  : Nat := 0
  aux  : Nat := 0
  unit : Nat := 4
  slot : Nat := 0
  drop : List Nat := []
  deriving DecidableEq, Repr

/-- Why a bundle does not issue (R247, R252). -/
inductive Wait where
  | late | drainHold | openHold | step | loader | plane | drainBusy | recon | pack | tern | bankBusy | dwait (mask : Nat)
  | array
  deriving DecidableEq, Repr

/-- What a STEP saves (R254), with the program tick it issued at. -/
structure Saved where
  pc      : Nat
  loops   : List Loop
  scalars : Tab (BitVec 32)
  streams : Tab (BitVec 64)
  metas   : List (BitVec 64)
  tick    : Nat
  reruns  : Nat
  failed  : List Nat
  dred    : Bool
  deriving DecidableEq, Repr

def Saved.empty : Saved :=
  { pc := 0, loops := [], scalars := [], streams := [], metas := [], tick := 0, reruns := 0, failed := [], dred := false }

/-- The part of a Station that a bundle changes and that is put back when the bundle writes nothing. `moved` lists the streams that
operations of the present tick have moved on (R233). -/
structure StCore where
  -- program
  task    : Task
  pc      : Nat
  tick    : Nat
  atick   : Nat
  loops   : List Loop
  scalars : Tab (BitVec 32)
  streams : Tab (BitVec 64)
  vregs   : Tab (List Lns)
  vscale  : Tab Lns
  pend    : List Pend
  moved   : List Nat
  spw     : List (Nat × List Byte)
  accs    : List Access
  saved   : Saved
  stepped : Bool
  -- array
  plane0  : Plane
  plane1  : Plane
  active  : Bool
  bank0   : Bank
  bank1   : Bank
  load    : Option Load
  loads   : Tab Load
  loadId  : Nat
  tree    : List Product
  tile    : Tile
  prevs   : List Tile
  tileId  : Nat
  bruns   : List Brun
  -- accumulators and drain unit
  slots   : Tab Slot
  drains  : List DrainJob
  fills   : List FillJob
  drainFree : Nat
  -- Recon
  union   : BitVec 4096
  recs    : List RecJob
  fins    : List FinJob
  recFree : Nat
  recVisible : Nat
  pblk    : Option Nat
  gathers : Tab (Nat × Gather)
  recChk  : Nat
  -- vector engines
  packs   : List PackJob
  terns   : List TernDraw
  strips  : List StripJob
  ternFree : Nat
  tbuf    : Tab (List Int)
  tcount  : Tab Nat
  -- DMA
  dmas    : List Dma
  -- generators
  gens    : Tab (BitVec 64)
  -- registers
  fmtStatus : BitVec 32
  arrStatus : BitVec 32
  bspStatus : BitVec 32
  accStatus : BitVec 32
  recStatus : BitVec 32
  stnStatus : BitVec 32
  chkCtl    : BitVec 32
  conflict  : BitVec 64
  ctr       : Tab (BitVec 64)
  deriving DecidableEq, Repr

/-- A bundle that waits, or a freeze between bundles: why, the ticks of the hold or stall, the slot operations offered for
the bundle so far, and the ticks of the hold that have passed (R152, R247). -/
structure Held where
  why  : Wait
  need : Nat
  ops  : List (Nat × Instr)
  gone : Nat := 0
  deriving DecidableEq, Repr

/-- What a Station does (R261). -/
inductive StMode where
  | idle | running | rerun | scrub
  deriving DecidableEq, Repr

/-- A write-combining buffer (R311): its 1 KiB region and the valid bytes by offset. -/
structure WcBuf where
  region : Nat
  bytes  : Tab Byte
  deriving DecidableEq, Repr

/-- A Station. `snap` is the core at the start of the open bundle and `ops` that bundle's slot operations so far with
their slots in the order of R232 (0 array to 10 CTL); `doubt` is the fault of an array-slot load that waits for the bundle's LOAD
field, since a second load there gives another status (R549); `rerun` is the word in which a read of the open bundle found a check error,
until the CTL field tells whether the bundle begins a step (R254, R256); `flips` counts the wrong bits of stored scratchpad words
(R253, R257) by their place in the banks over 8; `owner` is the Parcel whose slots and scratchpad it holds, `saveArea`
that Parcel and the image of those slots in the Station's save area of Tier N, by byte offset (R163, R164), `prev` the Parcel and the image of the task that ran before (R353). -/
structure Station where
  core    : StCore
  snap    : Option StCore
  ops     : List (Nat × Instr)
  doubt   : Option Flt
  rerun   : Option Nat
  held    : Option Held
  replay  : Option Replay
  queued  : List Replay
  mode    : StMode
  scratch : Tab Byte
  flips   : Tab Nat
  bankPtr : Tab Nat
  trackPtr : Nat
  wc      : List WcBuf
  cache   : List Nat
  owner   : Option Nat
  saveArea : Option (Nat × Tab Byte)
  preload : Option (Desc × List Byte)
  prev    : Option (Nat × Image)
  katDue  : Bool
  hold    : Nat
  scrubPos : Tab Nat
  lastKat : Nat
  deriving DecidableEq, Repr

def StCore.reset : StCore :=
  { task := .empty, pc := 0, tick := 0, atick := 0, loops := [], scalars := [], streams := [], vregs := [], vscale := [],
    pend := [], moved := [], spw := [], accs := [], saved := .empty, stepped := false,
    plane0 := .empty, plane1 := .empty, active := false, bank0 := .empty, bank1 := .empty, load := none, loads := [],
    loadId := 0, tree := [], tile := { id := 0, plane := 0, src := 0, amacs := [] },
    prevs := [], tileId := 0, bruns := [],
    slots := [], drains := [], fills := [], drainFree := 0,
    union := 0, recs := [], fins := [], recFree := 0, recVisible := 0, pblk := none, gathers := [], recChk := 0,
    packs := [], terns := [], strips := [], ternFree := 0, tbuf := [], tcount := [], dmas := [], gens := [],
    fmtStatus := 0, arrStatus := 0, bspStatus := 0, accStatus := 0, recStatus := 0,
    stnStatus := 0x000001C1#32, chkCtl := 3, conflict := 0, ctr := [] }

def Station.reset : Station :=
  { core := .reset, snap := none, ops := [], doubt := none, rerun := none, held := none, replay := none, queued := [], mode := .idle,
    scratch := [], flips := [], bankPtr := [], trackPtr := 0, wc := [], cache := [], owner := none, saveArea := none,
    preload := none, prev := none, katDue := false, hold := 0, scrubPos := [], lastKat := 0 }

/-! ### The counters of a Station, by number (R71, R103, R139, R176, R216, R262, R366) -/

inductive SC where
  | fmtElem | fmtSat | fmtUfl
  | arrMac | arrLoadTicks | arrLoads | arrReplayTicks | arrPlaneStalls
  | bspTiles | bspPasses | bspDeclared | bspVector | bspOverrun | bspIdle | bspGated
  | accTiles | accReplays | accInexact | accDrainHold | accOpenHold | accBlocks | accRed | accDepth
  | recTokens | recDraws | recSkipped | recEntries | recSlots | recAudSel | recAudChk | recMisses | recExpired
  | recGatherFrz
  | run | frzTier | frzDuty | frzDivsw | slip | bankStall | reruns | rerunTicks | chkDetected | chkCorrected
  | kvcDec | kvcEnc | kvcStage
  deriving DecidableEq, Repr

def SC.num (c : SC) : Nat := c.ctorIdx

end Sys2Proof.Machine
end

