-- ==== Sys2Proof/Machine/MemState.lean ====
section
/-!
DEFINITION. The state of the memory tiers, the page map, the dependence trackers, the seams and the weight-store links
("Memory Tiers and the Range", "Task Graphs and Dispatch", "The Module at a Glance"). Plain data.
-/

namespace Sys2Proof.Machine

/-! ### The page map (R295) -/

inductive PClass where
  | d | wPrivate | wShared
  deriving DecidableEq, Repr

inductive PState where
  | resident | moving | programming | poisoned | restoring | zeroing | unmapPending
  deriving DecidableEq, Repr

/-- A page entry (R295). `loc` is 0 N, 1 H, 2 W. -/
structure PageEntry where
  valid    : Bool
  cls      : PClass
  st       : PState
  loc      : Nat
  lstack   : Nat
  lframe   : Nat
  owner    : Nat
  mirrored : Bool
  share    : BitVec 16
  hstack   : Nat
  hframe   : Nat
  mstack   : Nat
  mframe   : Nat
  deriving DecidableEq, Repr

def PageEntry.none : PageEntry :=
  { valid := false, cls := .d, st := .resident, loc := 0, lstack := 0, lframe := 0, owner := 0, mirrored := false,
    share := 0, hstack := 0, hframe := 0, mstack := 0, mframe := 0 }

/-- A frame tag of Tier W (R306). TSTATE is 0 erased, 1 valid, 2 retired. -/
structure Tag where
  rpage  : Nat
  cls    : Nat
  tstate : Nat
  pgen   : Nat
  pcount : Nat
  parcel : Nat
  deriving DecidableEq, Repr

def Tag.erased : Tag := { rpage := 0, cls := 0, tstate := 0, pgen := 0, pcount := 0, parcel := 0 }

/-! ### Moves and Tier W writes (R313 to R317, R320, R327) -/

/-- A page move: of task `tid` on Facet `facet` (none for Grenlor's own), the page, the target tier and stack. `started`
once the destination frame is reserved. -/
structure Move where
  facet   : Nat
  tid     : Nat
  parcel  : Nat
  rpage   : Nat
  ttier   : Nat
  tstack  : Nat
  started : Bool
  dframe  : Nat
  chunk   : Nat
  deriving DecidableEq, Repr

/-- What a Tier W write belongs to. -/
inductive WWhy where
  | move (facet tid : Nat) | mirror | retire | reload | scrub | erase | abandoned
  deriving DecidableEq, Repr

/-- The work of one Tier W frame in order: `chunks` chunks left to program (8 at first), then its tag when `tag` is
some; an erase when `erase` holds; `busy` while a write is under way (R301, R306, R327). -/
structure WJob where
  stack  : Nat
  frame  : Nat
  rpage  : Nat
  why    : WWhy
  erase  : Bool
  chunks : Nat
  data   : Nat
  tag    : Option Tag
  busy   : Bool
  deriving DecidableEq, Repr

/-- A weight-store link command outstanding by TAG (R304). -/
structure WslCmd where
  tag   : Nat
  kind  : Nat
  frame : Nat
  arg   : Nat
  count : Nat
  deriving DecidableEq, Repr

/-- One direction of a weight-store link or of a seam: the next SEQ to send, the next expected, flits not yet
acknowledged with the replays of the oldest. -/
structure LinkDir where
  send    : Nat
  expect  : Nat
  unacked : List Nat
  replays : Nat
  replayOf : Nat
  retrain : Bool
  deriving DecidableEq, Repr

def LinkDir.reset : LinkDir := { send := 0, expect := 0, unacked := [], replays := 0, replayOf := 0, retrain := false }

/-- A weight-store link (R302 to R305): the commands outstanding, and the TAG and status of the last DONE. -/
structure Wsl where
  down : LinkDir
  up   : LinkDir
  cmds : List WslCmd
  done : Option (Nat × Status)
  temp : Nat
  activity : Nat
  deriving DecidableEq, Repr

def Wsl.reset : Wsl := { down := .reset, up := .reset, cmds := [], done := none, temp := 0, activity := 0 }

/-- A stack (R299 to R301, R324, R330). -/
structure Stack where
  status  : BitVec 32
  temp    : Nat
  duty    : Bool
  halved  : Bool
  refuse  : Bool
  suspend : Bool
  selfRef : Bool
  lastAcc : Nat
  rfm     : Nat
  deriving DecidableEq, Repr

/-- Every stack is in service with no reading (R330). -/
def Stack.reset : Stack :=
  { status := 0x00000010#32, temp := 0, duty := false, halved := false, refuse := false, suspend := false,
    selfRef := false, lastAcc := 0, rfm := 0 }

/-- An atomic add on its way to a controller (R168, R172): the Station it came from, and its bytes. -/
structure Atomic where
  id    : Nat
  stn   : Nat
  parcel : Nat
  addr  : Nat
  ctl   : Nat
  bytes : List Byte
  deriving DecidableEq, Repr

/-- The memory system. `cells` holds the bytes by physical address in canonical form: an unlisted byte reads as 0
(zero-filled at start-up, R328; an erased frame reads as zero, R301). Frames are numbered stack × 2^17 + frame in `tags` and
`zeroing`. `verify` holds the verifying reads of R320 as (page, stack, frame), `unmapWait` the unmaps that wait for a generation
to rise and `unmaps` those under way as (page, Parcel, generation from which its tasks do not matter, whether the page goes) (R297), `workRead` the AON
time of each working copy's last read, `round` the AON time at which a Facet's round of readings began and its duty then
(R325). -/
structure Mem where
  cells    : Tab Byte
  pages    : Tab PageEntry
  poison   : List Nat
  tags     : Tab Tag
  pgen     : Nat
  zeroing  : List Nat
  moves    : List Move
  wjobs    : List WJob
  verify   : List (Nat × Nat × Nat)
  lost     : List Nat
  mgen     : Tab (BitVec 8)
  unmapWait : List (Nat × List Nat × Bool)
  workRead : Tab Nat
  atomics  : List Atomic
  acks     : List (Nat × Nat × Nat)
  atomicId : Nat
  stks   : Tab Stack
  wsl      : Tab Wsl
  ctr      : Tab (BitVec 64)
  frameDraw : Nat
  round    : Tab (Nat × Nat)
  unmaps   : List (Nat × Nat × BitVec 8 × Bool)
  deriving DecidableEq, Repr

def Mem.reset : Mem :=
  { cells := [], pages := [], poison := [], tags := [], pgen := 0, zeroing := [], moves := [], wjobs := [], verify := [],
    lost := [], mgen := [], unmapWait := [], workRead := [], atomics := [], acks := [], atomicId := 0, stks := [],
    wsl := [], ctr := [], frameDraw := 0, round := [], unmaps := [] }

/-- The counters of a stack, by number (R331). -/
inductive MC where
  | ce | ue | movesIn | refused | wslReplays | progChunks | sagWait | retired
  deriving DecidableEq, Repr

def MC.num (c : MC) : Nat := c.ctorIdx

/-! ### Seams (R18 to R20) -/

/-- A seam with its two directions, and its unacknowledged flits as (direction, SEQ, payload). `service` is false from the fault until the next power-up. -/
structure Seam where
  fwd     : LinkDir
  bwd     : LinkDir
  kept    : List (Bool × Nat × List Byte)
  service : Bool
  deriving DecidableEq, Repr

def Seam.reset : Seam := { fwd := .reset, bwd := .reset, kept := [], service := true }

/-! ### The dependence trackers (R264 to R292) -/

inductive TState where
  | free | waiting | ready | running
  deriving DecidableEq, Repr

/-- An entry of a tracker's table (R274). `order` numbers the moments at which tasks became READY; `stn` is the Station
of a RUNNING task, none when it holds none (R316); `kat` marks a task that the test scheduler has made (R286); `moves` counts the page
moves still to be made for it, `moved` and `rec0` the status and the record that it keeps meanwhile. -/
structure TrkEntry where
  st      : TState
  desc    : Desc
  handles : List Handle
  gens    : List GenEntry
  depd    : Nat
  dept    : Nat
  order   : Nat
  stn     : Option Nat
  since   : Nat
  kat     : Bool
  moves   : Nat
  moved   : Status
  rec0    : List Byte
  deriving DecidableEq, Repr

def TrkEntry.free : TrkEntry :=
  { st := .free, desc := .empty, handles := [], gens := [], depd := 0, dept := 0, order := 0, stn := none, since := 0,
    kat := false, moves := 0, moved := 0, rec0 := [] }

/-- The counters of a tracker, by number (R292). -/
inductive TC where
  | accepted | rejected | dispatched | katRuns | tierLate | deadline | stale | cancelled
  deriving DecidableEq, Repr

def TC.num (c : TC) : Nat := c.ctorIdx

/-- The trackers: entries by facet × 4,096 + TASKID, the tokens from other modules that wait with their AON times
(R281), the set lists of the batch table (R265), Grenlor's completion queue (R288), and the status and counters. -/
structure Trk where
  table   : Tab TrkEntry
  pending : List (Nat × BitVec 64 × Nat)
  order   : Nat
  batch   : Tab (List Nat)
  records : List (List Byte)
  last    : Tab Status
  ctr     : Tab (BitVec 64)
  gateKat : List Nat
  deriving DecidableEq, Repr

def Trk.reset : Trk :=
  { table := [], pending := [], order := 0, batch := [], records := [], last := [], ctr := [], gateKat := [] }

end Sys2Proof.Machine
end

