-- ==== Sys2Proof/Machine/SrvState.lean ====
section
/-!
DEFINITION. The state of serving: Parcels, recipes, graph instances, the request table, Token Gates and adaptation
steps ("Serving Requests", "Mailboxes, Parcels and Arbitration"). Plain data.
-/

namespace Sys2Proof.Machine

/-! ### Recipes (R346, R347) -/

/-- A graph-table entry (R347). -/
structure GraphEnt where
  graph    : Nat
  gkind    : Nat
  ntask    : Nat
  template : Nat
  argbase  : Nat
  narg     : Nat
  deriving DecidableEq, Repr

/-- A bound recipe: what Grenlor copies from its header (R346) and its graph table. `edges` holds E1 to E15 of sources
1 to 7, `head` the header's bytes. -/
structure Recipe where
  num     : Nat
  v       : Nat
  nlayer  : Nat
  nkvh    : Nat
  d       : Nat
  pk      : Nat
  pv      : Nat
  kvPlain : Nat
  kvPacked : Nat
  fixedH  : Nat
  cbbase  : Nat
  ncbset  : Nat
  limSat  : Nat
  limUfl  : Nat
  limPass : Nat
  limReplay : Nat
  limMiss : Nat
  graphs  : List GraphEnt
  edges   : List (List Lns)
  head    : List Byte
  deriving DecidableEq, Repr

/-- A live graph instance (R61, R347): its SERIAL, the NONCE it began with, its recipe and graph, the argument slot it
holds, the step number, its tasks still in the trackers as (Facet, TASKID), and the first of its tasks that ended with a status
other than success, as (Facet, TASKID, STATUS). -/
structure Instance where
  serial : Nat
  nonce  : BitVec 64
  recipe : Nat
  graph  : Nat
  slot   : Option Nat
  step   : Nat
  owner  : Nat
  ownkind : Nat
  tasks  : List (Nat × Nat)
  failed : Option (Nat × Nat × Status)
  deriving DecidableEq, Repr

/-- A window of the remote-window table (R383). -/
structure Window where
  base   : Nat
  pages  : Nat
  module : Nat
  parcel : Nat
  rbase  : Nat
  perm   : Nat
  deriving DecidableEq, Repr

inductive PlState where
  | absent | active | resetting
  deriving DecidableEq, Repr

/-- A Parcel: what the Base Plan gives it (R411, R412, R334, R344) and what it holds. Quotas are in 2 MiB pages. `lastRate` is the
replay rate of the last window as a fraction, `rises` the consecutive windows in which it has risen (R178). -/
structure Parcel where
  st       : PlState
  stations : BitVec 64
  quotaN   : List Nat
  quotaH   : Nat
  quotaW   : Nat
  udp      : Nat
  prefixes : List (BitVec 128 × Nat)
  mgmt     : List (BitVec 128 × Nat)
  role     : Nat
  targets  : List (Nat × Nat)
  peers    : List (Nat × Nat)
  nonce    : BitVec 64
  serial   : Nat
  recipes  : Tab Recipe
  insts    : List Instance
  masks    : Tab (List Byte)
  grammars : Tab (List Byte)
  books    : Tab Nat
  windows  : Tab Window
  queue    : List Nat
  targetPtr : Nat
  drops    : Nat
  lastRate : Nat × Nat
  rises    : Nat
  deriving DecidableEq, Repr

def Parcel.absent : Parcel :=
  { st := .absent, stations := 0, quotaN := [], quotaH := 0, quotaW := 0, udp := 0, prefixes := [], mgmt := [],
    role := 0, targets := [], peers := [], nonce := 0, serial := 1, recipes := [], insts := [], masks := [],
    grammars := [], books := [], windows := [], queue := [], targetPtr := 0, drops := 0, lastRate := (0, 1), rises := 0 }

/-! ### The request table (R340 to R344) -/

inductive RState where
  | free | receiving | queued | prefill | shipping | decode | ending
  deriving DecidableEq, Repr

/-- A request block (R337). -/
structure ReqBlock where
  recipe : Nat
  nctx   : Nat
  ngen   : Nat
  topk   : Nat
  topp   : Lns
  temp   : Lns
  maskid : Nat
  gramid : Nat
  stops  : List Nat
  ttl    : Nat
  deriving DecidableEq, Repr

def ReqBlock.empty : ReqBlock :=
  { recipe := 0, nctx := 0, ngen := 0, topk := 0, topp := 0, temp := 0, maskid := 0, gramid := 0, stops := [], ttl := 0 }

/-- An entry of the request table. `home` is the Parcel that admitted it, `parcel` the one that runs it; `toks` holds the prompt by position, `gen` the generated tokens in order, `sentAt` the AON times at
which the first `sent` of them left, `segs` the
KV segments still to be stored at the decode side, `kvGens` the codebook sets and slots of the compressed blocks of its KV, `kv` those of a remote entry that have come by 256 × layer + head, `remote` the admitting (module, REQ) of a remote entry. -/
structure Request where
  st      : RState
  parcel  : Nat
  home    : Nat
  port    : Nat
  addr    : BitVec 128
  udp     : BitVec 16
  tag     : BitVec 32
  blk     : ReqBlock
  toks    : Tab Nat
  gen     : List Nat
  sent    : Nat
  sentAt  : List Nat
  endOff  : Nat
  frames  : Nat
  accept  : Nat
  lastPos : Nat
  firstTok : Option Nat
  endAt   : Nat
  endSends : Nat
  lastEnd : Nat
  endSt   : Status
  endPay  : List Byte
  qual    : Nat
  packed  : Bool
  serial  : Nat
  nonce   : BitVec 64
  step    : Nat
  gstate  : Nat
  segs    : List (Nat × Nat)
  dest    : Option (Nat × Nat × Nat)
  remote  : Option (Nat × Nat)
  waitRoom : Bool
  extents : List Nat
  kv      : Tab (List Byte)
  kvGens  : List (Nat × Nat)
  deriving DecidableEq, Repr

def Request.free : Request :=
  { st := .free, parcel := 0, home := 0, port := 0, addr := 0, udp := 0, tag := 0, blk := .empty, toks := [], gen := [], sent := 0, sentAt := [], endOff := 0,
    frames := 0, accept := 0, lastPos := 0, firstTok := none, endAt := 0, endSends := 0, lastEnd := 0, endSt := 0,
    endPay := [], qual := 0, packed := false, serial := 0, nonce := 0, step := 0, gstate := 0xFFFF, segs := [], dest := none,
    remote := none, waitRoom := false, extents := [], kv := [], kvGens := [] }

/-! ### Weighted-fair arbiters (R404 to R407) -/

/-- A weighted-fair arbiter: the slots of the present window used, each requester's credit and service, the rotating
pointer, and the shares latched at the window's start (none before its first slot). -/
structure Arb where
  slot : Nat
  c    : Tab Nat
  used : Tab Nat
  ptr  : Nat
  sh   : List (Nat × Nat)
  deriving DecidableEq, Repr

def Arb.reset : Arb := { slot := 0, c := [], used := [], ptr := 0, sh := [] }

/-! ### Token Gates (R356 to R360) -/

/-- A Gate job (R356). -/
structure GateJob where
  logits : Nat
  v      : Nat
  req    : Nat
  parcel : Nat
  temp   : Lns
  topp   : Lns
  topk   : Nat
  gstate : Nat
  serial : Nat
  step   : Nat
  maskid : Nat
  gramid : Nat
  kat    : Bool
  deriving DecidableEq, Repr

/-- A Token Gate: its queue, the job it runs (begun at the AON time `began`) with the token and grammar state it has chosen (none when no token is
allowed), its translation cache, its register. -/
structure Gate where
  queue  : List GateJob
  run    : Option (GateJob × Option (Nat × Nat))
  cache  : List Nat
  status : BitVec 32
  gen    : BitVec 64
  arb    : Arb
  began  : Nat
  lastKat : Nat
  deriving DecidableEq, Repr

def Gate.reset : Gate :=
  { queue := [], run := none, cache := [], status := 0, gen := 1, arb := .reset, began := 0, lastKat := 0 }

/-- An adaptation step of a Parcel (R363): its number, deadline and the source modules whose factor blocks have come. -/
structure Adapt where
  parcel   : Nat
  step     : Nat
  expected : List Nat
  got      : List (Nat × List Byte)
  ended    : Option Status
  deriving DecidableEq, Repr

/-- The counters of the Gates and serving ports (R366). -/
inductive GC where
  | jobs | logits | rxDropped
  deriving DecidableEq, Repr

def GC.num (c : GC) : Nat := c.ctorIdx

end Sys2Proof.Machine
end

