-- ==== Sys2Proof/Machine/MbxState.lean ====
section
/-!
DEFINITION. The state of the mailboxes, their transports and the plans ("Mailboxes, Parcels and Arbitration", "Base
Plan and Mode Overlays"), and what leaves the module. Plain data.
-/

namespace Sys2Proof.Machine

/-- What leaves the module, newest first in `State.out`: completion tokens, serving and Traverse frames, transport
units, doorbells, weight-store and seam flits, I3C bytes and interrupts, resets and answers of ports. The field `bytes`
holds a frame's payload as the rule of its kind lays it out. -/
inductive Out where
  | token (facet : Nat) (tok : BitVec 64)
  | serving (port : Nat) (addr : BitVec 128) (udp : BitVec 16) (kind : Nat) (seq : Nat) (tag : BitVec 32) (req : Nat)
      (reqv : Bool) (status : Status) (module offset : Nat) (bytes : List Byte)
  | traverse (port link pseq set : Nat) (kind cls dest dparcel sparcel tag addr hops plangen : Nat) (ecrc : BitVec 32) (bytes : List Byte)
  | linkFrame (link kind : Nat) (bytes : List Byte)
  | forward (port link pseq set : Nat) (kind : Nat) (fr : TFrame) (hops : Nat)
  | unit (mbox : Nat) (dst : USource) (ukind : Nat) (seq : BitVec 16) (code : BitVec 16) (tag : BitVec 32)
      (bytes : List Byte)
  | doorbell (net : Nat) (addr : BitVec 128) (udp : BitVec 16) (bytes : List Byte)
  | echo (port : Option (Fin 2)) (dst : BitVec 128) (bytes : List Byte)
  | advert (port : Option (Fin 2)) (dst target : BitVec 128)
  | wsl (link kind : Nat) (fl : WFlit)
  | wslCtl (link : Nat) (up nak : Bool) (seq : Nat)
  | seamCtl (seam : Nat) (dir nak : Bool) (seq : Nat)
  | seamOut (seam : Nat) (dir : Bool) (bytes : List Byte)
  | seamAgain (path : List Nat) (dir : Bool) (seq : Nat) (bytes : List Byte)
  | traverseCtl (link : Nat) (nak : Bool) (seq vc credits : Nat)
  | i3c (bytes : List Byte)
  | i3cNack
  | i3cAck
  | ibi (data : Byte)
  | tap (bits : List Bool)
  | rfm (stack : Nat)
  deriving DecidableEq, Repr

/-- A Traverse frame that awaits its ACK (R376): its TAG, the AON time it left, the Station and the Parcel of the task
that sent it (none for Grenlor's own, with the request it belongs to), and its peer. -/
structure SentFrame where
  tag    : Nat
  since  : Nat
  stn    : Option Nat
  req    : Option Nat
  parcel : Nat
  dest   : Nat
  dparcel : Nat
  deriving DecidableEq, Repr

/-- A waiting command of a mailbox: its unit, the AON time of its arrival, and whether it came ahead of NEXT (R416) rather than
while another executed (R417). -/
structure HeldCmd where
  u  : MUnit
  at' : Nat
  gap : Bool
  deriving DecidableEq, Repr

/-- A cached response (R416). -/
structure Resp where
  seq  : BitVec 16
  code : Status
  tag  : BitVec 32
  pay  : List Byte
  deriving DecidableEq, Repr

/-- A notification entry (R426). `first` is the AON time of the first merged event. -/
structure Note where
  ncode    : Nat
  vector   : Nat
  overflow : Bool
  count    : Nat
  first    : Nat
  detail   : List Byte
  deriving DecidableEq, Repr

/-- A mailbox (R414 to R431). `wait` is the command that executes and keeps its response, `sync` the SYNCs that wait for it, `staging` the staging area in
canonical form with default 0, `queue` the emitted entries not yet acknowledged, each with its notification SEQ. -/
structure Mbox where
  next    : BitVec 16
  held    : List HeldCmd
  cache   : List Resp
  bound   : Option USource
  wait    : Option MUnit
  sync    : List MUnit
  nseq    : BitVec 16
  cthresh : Tab Nat
  ctime   : Tab Nat
  vecOf   : Tab Nat
  pendN   : List Note
  queue   : List (BitVec 16 × Note)
  resent  : Nat
  lost    : Bool
  net     : Nat
  bellAddr : BitVec 128
  bellUdp : BitVec 16
  staging : Tab Byte
  relay   : Option (Nat × Nat)
  status  : BitVec 32
  deriving DecidableEq, Repr

def Mbox.reset : Mbox :=
  { next := 0, held := [], cache := [], bound := none, wait := none, sync := [], nseq := 0, cthresh := [], ctime := [],
    vecOf := [], pendN := [], queue := [], resent := 0, lost := false, net := 0, bellAddr := 0, bellUdp := 0,
    staging := [], relay := none, status := 0 }

/-- The counters of a mailbox, by number (R438). -/
inductive BC where
  | cmds | repeats | dropped | sent | merged | lost | doorbells | resets
  deriving DecidableEq, Repr

def BC.num (c : BC) : Nat := c.ctorIdx

/-- A Parcel reset in progress (R432): PURGE, whether the maintenance mailbox asked for it, the units that are answered at its
completion, and the Tier W frames whose erases or writes it waits for. -/
structure PReset where
  purge : Bool
  byM   : Bool
  units : List (Nat × MUnit)
  erases : List Nat
  forPlan : Bool
  deriving DecidableEq, Repr

/-- The I3C target (R421). -/
structure I3c where
  dynAddr : Option (BitVec 7)
  ibi     : Bool
  mwl     : Nat
  mrl     : Nat
  pending : List (Bool × List Byte)
  deriving DecidableEq, Repr

def I3c.reset : I3c := { dynAddr := none, ibi := true, mwl := 1044, mrl := 1044, pending := [] }

/-- A parameter entry (R441). -/
structure PEntry where
  pid   : Nat
  scope : Nat
  sub   : Nat
  value : List Byte
  deriving DecidableEq, Repr

/-- A Base Plan or Overlay (R439). -/
structure PlanObj where
  gen     : Nat
  baseGen : Nat
  entries : List PEntry
  bytes   : List Byte
  deriving DecidableEq, Repr

/-- An apply in progress (R448): its target mode, the AON time it began, the command that asked for it and whether its
resets have begun. -/
structure Apply where
  mode   : Nat
  from'  : Nat
  unit   : Option MUnit
  resets : Bool
  base   : Option PlanObj
  deriving DecidableEq, Repr

/-- The configuration (R441 to R451). `force` is the Base Plan in force, `stored` one that is stored and not yet in
force, `overlays` the stored Overlays by mode and `ovl` the one in force. -/
structure Plan where
  force    : PlanObj
  stored   : Option PlanObj
  overlays : Tab PlanObj
  mode     : Nat
  ovl      : Option PlanObj
  apply    : Option Apply
  last     : Status
  deriving DecidableEq, Repr

/-- Only the factory Base Plan, GEN 0, with no entry given by the spec (R3, R445). -/
def Plan.reset : Plan :=
  { force := { gen := 0, baseGen := 0, entries := [], bytes := Config.factoryPlan }, stored := none, overlays := [], mode := 1,
    ovl := none, apply := none, last := 0 }

end Sys2Proof.Machine
end

