-- ==== Sys2Proof/Machine/ModState.lean ====
section
/-!
DEFINITION. The state of the Traverse, of clocks and power, of the Bezel and its stores, of dependability and the Cairn,
and of the front panel ("The Traverse Between Modules", "Boot, Identity and Firmware Integrity", "Clocks, Power States
and Supply Behaviour", "Detection Bounds, Ageing and the Cairn Log", "Electrical, Thermal and Mechanical Data"). Plain
data.
-/

namespace Sys2Proof.Machine

/-! ### The Traverse (R367 to R403) -/

/-- A link record of the Survey Plan (R385). -/
structure SLink where
  modA  : Nat
  linkA : Nat
  modB  : Nat
  linkB : Nat
  line  : Bool
  len   : Nat
  deriving DecidableEq, Repr

/-- A port record (R385). -/
structure SPort where
  module  : Nat
  port    : Nat
  members : Nat
  deriving DecidableEq, Repr

/-- A group record: its members, each with its parent entry for a tree (R385). -/
structure SGroup where
  group  : Nat
  kind   : Nat
  budget : Nat
  mems   : List (Nat × Nat)
  deriving DecidableEq, Repr

/-- A Survey Plan (R385). -/
structure Survey where
  planId  : Nat
  planGen : Nat
  mods    : List (Nat × BitVec 64)
  links   : List SLink
  ports   : List SPort
  groups  : List SGroup
  hopMax  : Nat
  transit : Nat
  bytes   : List Byte
  deriving DecidableEq, Repr

/-- The states of a link (R388, R401). -/
inductive LinkSt where
  | down | training | hello | quarantined | active | probation | failed
  deriving DecidableEq, Repr

/-- A frame on its way out through a port (R377, R382, R393): what `out` will show of it, its class, set, length in bytes
and Parcel (none for transit), the hops that it carries and the port by which a transit frame came (18 for one of this module). -/
structure EFrame where
  what   : Out
  cls    : Nat
  set    : Nat
  dest   : Nat
  len    : Nat
  kind   : Nat
  parcel : Option Nat
  hops   : Nat
  ingress : Nat
  deriving DecidableEq, Repr

/-- A frame sent on a link and not yet acknowledged there: the FSEQ of its first flit and how many, its PSEQ. -/
structure UFrame where
  first : Nat
  flits : Nat
  pseq  : Nat
  fr    : EFrame
  deriving DecidableEq, Repr

/-- A link: `since` is the AON time at which it entered its state, `unacked` the frames sent and not acknowledged,
`used` the 128-byte credits in use on each channel, `replayed` the replays of the oldest flit. -/
structure TLink where
  st       : LinkSt
  since    : Nat
  status   : BitVec 64
  send     : Nat
  expect   : Nat
  unacked  : List UFrame
  replayed : Nat
  retrain  : Bool
  used     : Tab Nat
  deriving DecidableEq, Repr

def TLink.reset : TLink :=
  { st := .down, since := 0, status := 0, send := 0, expect := 0, unacked := [], replayed := 0, retrain := false, used := [] }

/-- A logical port: the PSEQ of the next frame in each direction, the frames that came early, those that wait to leave,
the member links' turn, the ingress ports' turn, and the system class's flits (`sys`) in the window `win` of flit times (R382). -/
structure TPort where
  tx    : Nat
  rx    : Nat
  early : List (Nat × Instr)
  queue : List EFrame
  turn  : Nat
  arb   : Arb
  from_ : Nat
  win   : Nat
  sys   : Nat
  deriving DecidableEq, Repr

def TPort.reset : TPort := { tx := 0, rx := 0, early := [], queue := [], turn := 0, arb := .reset, from_ := 0, win := 0, sys := 0 }

/-- Closure at this module (R391 to R393): FAILSET as (module, port) pairs of both ends, the ends whose REOPEN has come
since a port's last failure, the newest ECOUNT seen of each origin, its own, the AON time of the last new event, and
whether the computation runs. -/
structure Closure where
  failed  : List (Nat × Nat)
  reopened : List (Nat × Nat × Nat)
  seen    : Tab Nat
  ecount  : Nat
  event   : Option Nat
  running : Bool
  deriving DecidableEq, Repr

/-- A KV segment that is arriving (R355, R374): where it comes from, what its header says, and the parts so far by offset. -/
structure KvIn where
  src     : Nat
  sparcel : Nat
  dparcel : Nat
  module  : Nat
  req     : Nat
  layer   : Nat
  head    : Nat
  blocks  : Nat
  parts   : Tab (List Byte)
  deriving DecidableEq, Repr

/-- The Traverse of a module. `routes` gives the port by 2 × destination + set. -/
structure Trv where
  survey  : Option Survey
  links   : Tab TLink
  ports   : Tab TPort
  routes  : Tab Nat
  cl      : Closure
  status  : BitVec 32
  ctr     : Tab (BitVec 64)
  kvIn    : List KvIn
  deriving DecidableEq, Repr

def Trv.reset : Trv :=
  { survey := none, links := [], ports := [], routes := [],
    cl := { failed := [], reopened := [], seen := [], ecount := 0, event := none, running := false }, status := 0, ctr := [],
    kvIn := [] }

/-- The Traverse counters (R403): five per link, five per module. -/
inductive VC where
  | tx | rx | fec | replays | retrains | fwd | expired | dropped | denied | closures
  deriving DecidableEq, Repr

def VC.num (c : VC) : Nat := c.ctorIdx

/-! ### Clocks (R477 to R485) -/

/-- The clocks: the limits of R479, a switch of R480 from its old to its new divider and whether the clock is stopped, the
trim in mV with its target while it ramps, the trim that follows a switch, the guard's last raise and the start of its quiet time, the
start of the projection window, the limit that changed last, by its number in R521, and the window counter of each Facet's issue duty
(R249, R250). -/
structure Clk where
  div     : Nat
  margin  : Nat
  proj    : Nat
  guard   : Nat
  supply  : Bool
  ssc     : Nat × Nat
  pll     : Bool
  refOk   : Bool
  switch  : Option (Nat × Nat × Bool)
  trim    : Nat
  ramp    : Option Nat
  trimNext : Option Nat
  raised  : Option Nat
  quiet   : Option Nat
  window  : Option Nat
  fault   : BitVec 32
  cause   : Nat
  duty    : Tab Nat
  deriving DecidableEq, Repr

def Clk.reset : Clk :=
  { div := 6, margin := 6, proj := 6, guard := 5, supply := false, ssc := (0, 30), pll := false, refOk := false,
    switch := none, trim := 0, ramp := none, trimNext := none, raised := none, quiet := none, window := none, fault := 0, cause := 0,
    duty := [] }

/-! ### Power (R486 to R500) -/

/-- Station power states (R486). -/
inductive SPow where
  | off | parked | ready | running
  deriving DecidableEq, Repr

/-- Supply states (R493). -/
inductive Supply where
  | normal | sag | abort | shut
  deriving DecidableEq, Repr

/-- Power: the supply state, the latest voltage and power samples (newest first, 1 ms of them), the millisecond in progress with the
sum and the number of its samples, the Stations' states with the
AON time of entering Ready and the wakes under way, RESET_N, the straps, whether ports and links are silent, PWR_OK. -/
structure Pwr where
  powered : Bool
  supply  : Supply
  vin     : BitVec 16
  samples : List Nat
  msWin   : Nat
  msSum   : Nat
  msCnt   : Nat
  secs    : List (Nat × Nat × Nat)
  stn     : Tab SPow
  since   : Tab Nat
  waking  : Tab SPow
  resetN  : Bool
  modsel  : BitVec 2
  silent  : Bool
  ok      : Bool
  ctr     : Tab (BitVec 64)
  deriving DecidableEq, Repr

/-- No power; PWR_STATUS.SUPPLY reads SAG (R499). -/
def Pwr.reset : Pwr :=
  { powered := false, supply := .sag, vin := 0, samples := [], msWin := 0, msSum := 0, msCnt := 0, secs := [], stn := [], since := [], waking := [], resetN := true,
    modsel := 3, silent := false, ok := false, ctr := [] }

/-- The clock and power counters (R500) and the dependability counters (R530). -/
inductive PC where
  | divSwitches | guardRaises | sagEvents | sagAon | aborts | wakesOff | wakesParked
  | katFails | sramCorrected | lockstepFails | benchReads | recordsWritten | recordsLost
  | attests | attestRefused | imageAnswers | repeats | sectorsErased
  deriving DecidableEq, Repr

def PC.num (c : PC) : Nat := c.ctorIdx

/-! ### The Bezel (R452 to R476) -/

/-- An operator key slot (R462). -/
structure KeySlot where
  enrol : Nat
  ecdsa : List Byte
  hss   : List Byte
  deriving DecidableEq, Repr

def KeySlot.empty : KeySlot := { enrol := 0, ecdsa := [], hss := [] }

/-- The firmware image region (R455, R467): its bytes, whether it is valid, and the operating hours at its first start-up. -/
structure ImageRegion where
  valid : Bool
  bytes : List Byte
  since : Option Nat
  deriving DecidableEq, Repr

/-- What a configuration-flash job writes (R446, R467, R523). -/
inductive FlashWhy where
  | base (p : PlanObj) | overlay (m : Nat) (p : PlanObj) | survey (sv : Survey)
  | image (bytes : List Byte) (recover : Bool)
  | cairn (n : Nat)
  deriving DecidableEq, Repr

/-- A configuration-flash job: its operations (erases and page programs) still to be made, whether one is under way, and
the command it answers. -/
structure FlashJob where
  why   : FlashWhy
  left  : Nat
  busy  : Bool
  mbox  : Nat
  unit  : Option MUnit
  deriving DecidableEq, Repr

/-- What a key-store write holds: an operator key slot (R462), or the digest of a plan that has just been stored (R459). -/
inductive KeyWhy where
  | slot (role : Nat) (k : KeySlot)
  | plan (w : FlashWhy)
  deriving DecidableEq, Repr

/-- An attestation under way (R464, R465): the mailbox, its command, q, whether the counter write has ended. -/
structure Attest where
  mbox : Nat
  unit : MUnit
  q    : Nat
  done : Bool
  deriving DecidableEq, Repr

/-- The ROM in recovery (R468, R469): the link in turn (18 when every source has failed, at the AON time `since`), the outstanding
requests as (TAG, offset, repeats, AON time), the parts received so far by offset, the image's length once it is known, the next TAG
and the offset of the next request. -/
structure Recov where
  link  : Nat
  since : Nat
  reqs  : List (Nat × Nat × Nat × Nat)
  got   : Tab (List Byte)
  len   : Option Nat
  tag   : Nat
  next  : Nat
  deriving DecidableEq, Repr

/-- The Bezel. `boot` is the step of R457 last completed; `keys` says that the identity keys are in the key registers; `fuseTo` is the
version the fuses advance to, `fuseBusy` the fuse that blows (true for a DBG fuse); `m` holds M0 to M5; `kept` is BUCKET as the LMS
counter holds it; `dbgStep` is the DEBUG_UNLOCK under way with the step of R472 it has reached; `build`, `runSvn` and `since` are those
of the running image; `survey` is the Survey Plan in the configuration flash. -/
structure Sec where
  boot     : Nat
  halted   : Bool
  recover  : Option Recov
  svn      : Nat
  dbg      : Nat
  fuseTo   : Option Nat
  fuseBusy : Option Bool
  slots    : Tab KeySlot
  digests  : Tab (BitVec 384)
  keyQ     : List (KeyWhy × Nat × Option MUnit)
  keyBusy  : Bool
  keys     : Bool
  locked   : Bool
  nextQ    : Nat
  bucket   : Nat
  kept     : Nat
  m        : Tab (BitVec 384)
  challenge : Option (BitVec 384 × Nat)
  dbgStep  : Option (MUnit × Nat)
  open'    : Bool
  tap      : Byte
  image    : ImageRegion
  survey   : Option Survey
  flash    : List FlashJob
  attests  : List Attest
  lmsBusy  : Bool
  build    : Nat
  runSvn   : Nat
  since    : Option Nat
  treeReady : Bool
  refill   : Nat
  last     : Status
  draws    : Nat
  deriving DecidableEq, Repr

/-- As provisioned (R461): no fuse blown, both key slots empty, BUCKET 64. -/
def Sec.reset : Sec :=
  { boot := 0, halted := false, recover := none, svn := 0, dbg := 0, fuseTo := none, fuseBusy := none, slots := [],
    digests := [], keyQ := [], keyBusy := false, keys := false, locked := true, nextQ := 0, bucket := 64, kept := 64, m := [],
    challenge := none, dbgStep := none, open' := false, tap := 0x01#8,
    image := { valid := true, bytes := Config.firmwareImage, since := none }, survey := none, flash := [], attests := [], lmsBusy := false, build := 0, runSvn := 0, since := none, treeReady := true, refill := 0, last := 0,
    draws := 0 }

/-! ### Dependability and the Cairn (R501 to R530) -/

/-- A die: its latest reading in 0.25 °C, the readings in a row in which sensors disagreed, and the band of R512 in force
(0 normal, 1, 2). -/
structure Die where
  temp  : Nat
  apart : Nat
  band  : Nat
  deriving DecidableEq, Repr

def Die.reset : Die := { temp := 0, apart := 0, band := 0 }

/-- A Cairn record in the buffer or in a flash slot (R518, R519). `opened` is the AON time of its first occurrence. -/
structure CRec where
  kind   : Nat
  flags  : Nat
  source : Nat
  scope  : Nat
  rpt    : Nat
  rseq   : Nat
  hFirst : Nat
  cFirst : Nat
  hLast  : Nat
  body   : List Byte
  opened : Nat
  closed : Bool
  deriving DecidableEq, Repr

/-- The Cairn: the buffer in order of opening, the flash slots, and what CRN_STATUS shows; `period` is the operating hours
at which the present period of the histograms and extremes began. -/
structure Cairn where
  buf     : List CRec
  slots   : Tab (List Byte)
  next    : Nat
  wrapped : Bool
  lost    : Bool
  before  : Bool
  rseq    : Nat
  period  : Nat
  deriving DecidableEq, Repr

def Cairn.reset : Cairn :=
  { buf := [], slots := [], next := 0, wrapped := false, lost := false, before := false, rseq := 0, period := 0 }

/-- A perturbation entry (R526). -/
structure Tpert where
  target : BitVec 64
  action : BitVec 64
  addr   : BitVec 64
  hits   : BitVec 64
  deriving DecidableEq, Repr

/-- STRETCH is 16 at reset (R526). -/
def Tpert.reset : Tpert := { target := 0, action := 0x0000000100000000#64, addr := 0, hits := 0 }

/-- Dependability: withdrawn Stations and adders, pairs out of service, dies, the dispatch log (request, Station, AON time),
the last passed adder test of each controller, each Station's Benchmark reading (the divider and the trim in force, the slacks of
CP0 to CP3 in ps), the open window (operating hours at its opening, Stations read), operating hours, power cycles, PWR_RAIL_FAULT,
the perturbations, what the Cairn is to record at step 6 of the next boot (R485, R507), and each Station's counters as they were
sampled last (R72). -/
structure Dep where
  withdrawn : BitVec 64
  adders    : List Nat
  pairs     : BitVec 4
  dies      : Tab Die
  log       : List (Nat × Nat × Nat)
  adderKat  : Tab Nat
  slack     : Tab (Nat × Nat × List Int)
  window    : Option (Nat × List Nat)
  hours     : Nat
  cycles    : Nat
  rail      : BitVec 32
  tperts    : Tab Tpert
  later     : List (Nat × Status × List Byte)
  samples   : Tab (List Nat)
  deriving DecidableEq, Repr

def Dep.reset : Dep :=
  { withdrawn := 0, adders := [], pairs := 0, dies := [], log := [], adderKat := [], slack := [], window := none,
    hours := 0, cycles := 0, rail := 0, tperts := [], later := [], samples := [] }

/-! ### The front panel (R332, R537 to R540) -/

/-- The cages by number (0 and 1 the serving cages, 2 + k cage Ck): presence with its AON time, power; the serving links. -/
structure Panel where
  present : Tab Nat
  power   : BitVec 20
  fault   : BitVec 32
  link0   : Bool
  link1   : Bool
  deriving DecidableEq, Repr

def Panel.reset : Panel := { present := [], power := 0, fault := 0, link0 := false, link1 := false }

end Sys2Proof.Machine
end

