-- ==== Sys2Proof/Machine/State.lean ====
section
/-!
DEFINITION. The state of the module, its fault and refusal reasons, and the state right after reset. Plain data.
-/

namespace Sys2Proof.Machine

/-- Why the machine stops with a fault. -/
inductive Fault where
  /-- A weight-store command names a frame at or above 98,304, which the stack does not have (R301), or a read bytes beyond
  its frame (R304). Raised by WSL_READ, WSL_PROG, WSL_ERASE and WSL_TAGWR. Safe: the model stops where the spec gives no frame. -/
  | noSuchFrame
  deriving DecidableEq, Repr

/-- Why a command has no meaning. -/
inductive Refusal where
  /-- The command is not modelled. Raised by the arms of exec that name it, and by no meaning. Safe. -/
  | notModelled (mnemonic : String)
  deriving DecidableEq, Repr

/-- The module. -/
structure State where
  pending  : List Instr
  aon      : Nat
  out      : List Out
  stns     : Tab Station
  mem      : Mem
  seams    : Tab Seam
  trk      : Trk
  parcels  : Tab Parcel
  reqs     : Tab Request
  gates    : Tab Gate
  adapts   : List Adapt
  duty     : Tab Nat
  srvCtr   : Tab (BitVec 64)
  mbox     : Tab Mbox
  mboxCtr  : Tab (BitVec 64)
  presets  : Tab PReset
  i3c      : I3c
  plan     : Plan
  modNum   : Nat
  sent     : List SentFrame
  trvTag   : Nat
  trv      : Trv
  clk      : Clk
  pwr      : Pwr
  sec      : Sec
  dep      : Dep
  cairn    : Cairn
  panel    : Panel
  draws    : Nat
  free     : Nat
  deriving DecidableEq, Repr

def State.reset : State :=
  { pending := [], aon := 0, out := [], stns := [], mem := .reset, seams := [], trk := .reset, parcels := [], reqs := [],
    gates := [], adapts := [], duty := [], srvCtr := [], mbox := [], mboxCtr := [], presets := [], i3c := .reset,
    plan := .reset, modNum := 0xFFFF, sent := [], trvTag := 0, trv := .reset, clk := .reset, pwr := .reset,
    sec := .reset, dep := .reset, cairn := .reset, panel := .reset, draws := 0, free := 0 }

end Sys2Proof.Machine
end

