-- ==== Sys2Proof/Machine/Ops.lean ====
section
/-!
DEFINITION. The named operations that every family shares: access to the tables of State, counters and registers, what
leaves the module, transport units and notifications (R414, R426 to R431).
-/

namespace Sys2Proof.Machine

/-! ### Access to the tables -/

def State.stn (s : State) (n : Nat) : Station := tget .reset s.stns n
def State.setStn (s : State) (n : Nat) (x : Station) : State := { s with stns := fput s.stns n x }
def State.modStn (s : State) (n : Nat) (f : Station → Station) : State := s.setStn n (f (s.stn n))
def State.core (s : State) (n : Nat) : StCore := (s.stn n).core
def State.modCore (s : State) (n : Nat) (f : StCore → StCore) : State :=
  s.modStn n fun x => { x with core := f x.core }
def State.parcel (s : State) (p : Nat) : Parcel := tget .absent s.parcels p
def State.modParcel (s : State) (p : Nat) (f : Parcel → Parcel) : State :=
  { s with parcels := fput s.parcels p (f (s.parcel p)) }
def State.req (s : State) (r : Nat) : Request := tget .free s.reqs r
def State.modReq (s : State) (r : Nat) (f : Request → Request) : State := { s with reqs := fput s.reqs r (f (s.req r)) }
def State.gate (s : State) (f : Nat) : Gate := tget .reset s.gates f
def State.modGate (s : State) (f : Nat) (g : Gate → Gate) : State := { s with gates := fput s.gates f (g (s.gate f)) }
def State.box (s : State) (m : Nat) : Mbox := tget .reset s.mbox m
def State.modBox (s : State) (m : Nat) (f : Mbox → Mbox) : State := { s with mbox := fput s.mbox m (f (s.box m)) }
def State.stack (s : State) (k : Nat) : Stack := tget .reset s.mem.stks k
def State.modStack (s : State) (k : Nat) (f : Stack → Stack) : State :=
  { s with mem := { s.mem with stks := fput s.mem.stks k (f (s.stack k)) } }
def State.entry (s : State) (f t : Nat) : TrkEntry := tget .free s.trk.table (f * 4096 + t)
def State.setEntry (s : State) (f t : Nat) (e : TrkEntry) : State :=
  { s with trk := { s.trk with table := fput s.trk.table (f * 4096 + t) e } }
def State.page (s : State) (r : Nat) : PageEntry := tget .none s.mem.pages r

/-- Issue duty k of a Facet (R249); 8 at reset (R261: DUTY = 0b111). -/
def State.dutyOf (s : State) (f : Nat) : Nat := tget 8 s.duty f

/-- The Facet of a Station (R16). -/
def facetOf (n : Nat) : Nat := n / 16

def State.emit (s : State) (o : Out) : State := { s with out := o :: s.out }

/-! ### Counters -/

def ctrGet (t : Tab (BitVec 64)) (k : Nat) : BitVec 64 := tget 0 t k
def ctrAdd (t : Tab (BitVec 64)) (k n : Nat) : Tab (BitVec 64) := fput t k (ctrGet t k + BitVec.ofNat 64 n)

/-- Raises a Station counter. -/
def StCore.count (c : StCore) (k : SC) (n : Nat := 1) : StCore := { c with ctr := ctrAdd c.ctr k.num n }
/-- Raises a stack counter (R331). -/
def State.memCount (s : State) (stack : Nat) (k : MC) (n : Nat := 1) : State :=
  { s with mem := { s.mem with ctr := ctrAdd s.mem.ctr (stack * 16 + k.num) n } }
/-- Raises a tracker counter (R292). -/
def State.trkCount (s : State) (f : Nat) (k : TC) (n : Nat := 1) : State :=
  { s with trk := { s.trk with ctr := ctrAdd s.trk.ctr (f * 16 + k.num) n } }
/-- Raises a mailbox counter (R438). -/
def State.boxCount (s : State) (m : Nat) (k : BC) (n : Nat := 1) : State :=
  { s with mboxCtr := ctrAdd s.mboxCtr (m * 16 + k.num) n }
/-- Raises a serving counter of a Facet or port (R366). -/
def State.srvCount (s : State) (i : Nat) (k : GC) (n : Nat := 1) : State :=
  { s with srvCtr := ctrAdd s.srvCtr (i * 16 + k.num) n }

/-- A saturating sum for the fields of completion records. -/
def satAdd (m a b : Nat) : Nat := min m (a + b)

/-- What an operation does to the flags and counters of R70 and R71, and to the task's flags (R69). -/
def StCore.fmt (c : StCore) (e : FmtEv) : StCore :=
  { (((c.count .fmtElem e.elems).count .fmtSat (e.lsat + e.psat)).count .fmtUfl (e.lufl + e.pufl)) with
    fmtStatus := c.fmtStatus ||| e.flags, task := { c.task with flags := c.task.flags.add e } }

/-! ### The configuration in force (R441, R442, R444) -/

/-- The value of a parameter in a list of entries. -/
def findEntry (es : List PEntry) (pid scope sub : Nat) : Option (List Byte) :=
  (es.find? fun e => e.pid == pid && e.scope == scope && e.sub == sub).map (·.value)

/-- A parameter under a Base Plan and an Overlay: the Overlay's entry, else the Base Plan's. -/
def paramUnder (b : PlanObj) (o : Option PlanObj) (pid scope sub : Nat) : Option (List Byte) :=
  ((o.bind fun x => findEntry x.entries pid scope sub)).orElse fun _ => findEntry b.entries pid scope sub

/-- A parameter of the configuration in force. -/
def State.cfg (s : State) (pid scope sub : Nat) : Option (List Byte) := paramUnder s.plan.force s.plan.ovl pid scope sub

/-- A share pair (R442 P_SHARE): m and M, M = 256 written as 0. -/
def shareOf (v : Option (List Byte)) : Nat × Nat :=
  match v with
  | some b => (le b 0 1, if le b 1 1 = 0 then 256 else le b 1 1)
  | none => (0, 256)

/-- The shares of requester `i` (0, or Parcel i − 1) at the arbiter that SUB names (R408, R443). -/
def State.share (s : State) (sub i : Nat) : Nat × Nat :=
  if i = 0 then
    (if sub / 32 ≤ 3 then (16, 256)
     else if sub / 32 = 4 then (match s.trv.survey with
       | some v => (v.transit, 256)
       | none => (0, 256))
     else if sub / 32 = 6 then (4, 256) else (0, 0))
  else shareOf (s.cfg 0x0014 (i - 1) sub)

/-! ### Arbiters (R404, R407) -/

/-- The first contending index from the pointer on, of `n` requesters (R404). -/
def rotPick (n ptr : Nat) (xs : List Nat) : Option Nat :=
  ((List.range n).map fun k => (ptr + k) % n).find? fun i => xs.contains i

/-- The shares of a window: those latched at its start. -/
def Arb.shares (a : Arb) (now : List (Nat × Nat)) : List (Nat × Nat) := if a.slot = 0 ∧ a.used = [] then now else a.sh

/-- The winner of a slot among the waiting requesters (R407, steps 1 to 3). -/
def Arb.pick (a : Arb) (now : List (Nat × Nat)) (waiting : List Nat) : Option Nat :=
  let sh := a.shares now
  let n := now.length
  let el := waiting.filter fun i => decide (tget 0 a.used i < (sh.getD i (0, 0)).2)
  let cr (i : Nat) : Nat := tget (sh.getD i (0, 0)).1 a.c i
  let top := el.foldl (fun m i => max m (cr i)) 0
  if 0 < top then rotPick n a.ptr (el.filter fun i => cr i == top) else rotPick n a.ptr el

/-- The arbiter after a unit of charge `k` of requester `i` (R404, R407): what runs past the window's end counts in the
next. -/
def Arb.charge (a : Arb) (now : List (Nat × Nat)) (i k : Nat) : Arb :=
  let sh := a.shares now
  let slot := a.slot + k
  let ptr := (i + 1) % now.length
  if 256 ≤ slot then
    { slot := slot - 256, c := [], used := if slot = 256 then [] else [(i, slot - 256)], ptr := ptr, sh := now }
  else
    { slot := slot, c := fput a.c i (tget (sh.getD i (0, 0)).1 a.c i - k), used := fput a.used i (tget 0 a.used i + k),
      ptr := ptr, sh := sh }

/-- The arbiter when requesters wait and each has had its maximum: the idle slots run to the window's end, and the next window begins
(R407; DESIGN CHOICE, log entry 152). -/
def Arb.turned (a : Arb) (now : List (Nat × Nat)) (waiting : List Nat) : Arb :=
  if !waiting.isEmpty ∧ (waiting.all fun i => decide (((a.shares now).getD i (0, 0)).2 ≤ tget 0 a.used i)) then
    { slot := 0, c := [], used := [], ptr := a.ptr, sh := now }
  else a

/-- A Parcel's credit and service at an arbiter are set to 0 (R432). -/
def Arb.drop (a : Arb) (i : Nat) : Arb := { a with c := fput a.c i 0, used := fput a.used i 0 }

/-! ### Supply and power (R486, R494) -/

/-- Whether a non-volatile write may start (R494). -/
def State.nv (s : State) : Bool := s.pwr.powered && s.pwr.supply == .normal

def State.spow (s : State) (n : Nat) : SPow := tget .off s.pwr.stn n
def State.setSpow (s : State) (n : Nat) (p : SPow) : State :=
  { s with pwr := { s.pwr with stn := fput s.pwr.stn n p, since := fput s.pwr.since n s.aon } }
def State.isWithdrawn (s : State) (n : Nat) : Bool := s.dep.withdrawn.getLsbD n

def State.modCount (s : State) (k : PC) (n : Nat := 1) : State :=
  { s with pwr := { s.pwr with ctr := ctrAdd s.pwr.ctr k.num n } }

/-! ### Serving ports (R332, R539) -/

def State.linkUp (s : State) (p : Nat) : Bool := if p = 0 then s.panel.link0 else s.panel.link1

/-- The port by which a frame to a client leaves: its own while its link is up, else the other; none when both are down. -/
def State.servPort (s : State) (p : Nat) : Option Nat :=
  if s.linkUp p then some p else if s.linkUp (1 - p) then some (1 - p) else none

/-! ### Cairn records (R518 to R522) -/

def CRec.same (r : CRec) (kind source scope : Nat) (body : List Byte) : Bool :=
  !r.closed && r.kind == kind && r.source == source && r.scope == scope && r.body == body

/-- An occurrence merges into the open record of the same content, or opens one, or is lost to a full buffer (R522). -/
def State.cairnAdd (s : State) (kind source scope flags : Nat) (body : List Byte) : State :=
  let c := s.cairn
  let h := s.dep.hours
  let merge (r : CRec) : CRec :=
    if r.same kind source scope body then
      { r with rpt := min 0xFFFF (r.rpt + 1), hLast := h, flags := r.flags ||| flags, closed := decide (0xFFFF ≤ r.rpt + 1) }
    else r
  if c.buf.any (fun r => r.same kind source scope body) then
    ({ s with cairn := { c with buf := c.buf.map merge } }).modCount .repeats
  else if 512 ≤ c.buf.length then ({ s with cairn := { c with lost := true, before := true } }).modCount .recordsLost
  else
    { s with cairn := { c with
        rseq := (c.rseq + 1) % 2 ^ 32,
        buf := c.buf ++ [{ kind := kind, flags := flags, source := source, scope := scope, rpt := 0, rseq := c.rseq,
                           hFirst := h, cFirst := s.dep.cycles, hLast := h, body := body, opened := s.aon,
                           closed := false }] } }

/-- A state record (R521): EVENT, STATUS and DETAIL. -/
def State.cairnEvent (s : State) (event : Nat) (st : Status) (detail : List Byte) : State :=
  s.cairnAdd 3 0x0030 0xFFFF 0 (natLe 2 event ++ natLe 2 st.toNat ++ fit 0 32 detail)

/-! ### Test perturbation (R526, R527) -/

/-- Whether an entry acts on a target (R526). -/
def Tpert.on (x : Tpert) (kind ix : Nat) : Bool :=
  x.action.getLsbD 0 && bits x.target.toNat 23 16 == kind && bits x.target.toNat 15 0 == ix

/-- Whether a TYPE 4 entry has an event left for an access of `len` bytes at `a`: a 64-bit word of the scratchpad, or a sector of the
Range. -/
def Tpert.forces (x : Tpert) (scratch : Bool) (a len : Nat) : Bool :=
  let w := if scratch then 8 else 64
  let at_ := if scratch then bits x.addr.toNat 23 0 else bits x.addr.toNat 43 0
  bits x.action.toNat 3 1 == 4 && decide (0 < bits x.action.toNat 55 48) && x.addr.getLsbD 63 == scratch &&
    decide (a / w ≤ at_ / w ∧ at_ / w * w < a + max 1 len)

/-- An access through a target: the delaying and stretching entries that act on it count a hit; program timing is unchanged (R527). -/
def State.perturbHit (s : State) (kind ix : Nat) : State :=
  { s with dep := { s.dep with tperts := s.dep.tperts.map fun p =>
    (p.1, if p.2.on kind ix && (bits p.2.action.toNat 3 1 == 0 || bits p.2.action.toNat 3 1 == 2)
      then { p.2 with hits := p.2.hits + 1 } else p.2) } }

/-- A read through a target: the first entry of TYPE 4 with an event left for it forces an error of the kind that the second result
gives, true for uncorrectable (R527). -/
def State.perturb (s : State) (kind ix : Nat) (scratch : Bool) (a len : Nat) : State × Option Bool :=
  match s.dep.tperts.find? fun p => p.2.on kind ix && p.2.forces scratch a len with
  | none => (s, none)
  | some (e, x) =>
    ({ s with dep := { s.dep with tperts := fput s.dep.tperts e { x with hits := x.hits + 1, action := x.action - (1#64 <<< 48) } } },
     some (bits x.action.toNat 45 44 == 1))

/-- Marks the Cairn records opened since RSEQ `q` as caused by a perturbation (R519, R527). -/
def State.forcedSince (s : State) (q : Nat) : State :=
  { s with cairn := { s.cairn with buf := s.cairn.buf.map fun r => if q ≤ r.rseq then { r with flags := r.flags ||| 4 } else r } }

/-! ### Traverse egress (R371, R377 to R382) -/

/-- This module's number in the Survey Plan (R335); a free value while none is in force. -/
def State.own (s : State) : Nat := if s.modNum = 0xFFFF then Config.noModule else s.modNum
def State.tlink (s : State) (k : Nat) : TLink := tget .reset s.trv.links k
def State.modLink (s : State) (k : Nat) (f : TLink → TLink) : State :=
  { s with trv := { s.trv with links := fput s.trv.links k (f (s.tlink k)) } }
def State.tport (s : State) (p : Nat) : TPort := tget .reset s.trv.ports p
def State.modPort (s : State) (p : Nat) (f : TPort → TPort) : State :=
  { s with trv := { s.trv with ports := fput s.trv.ports p (f (s.tport p)) } }
/-- Raises a Traverse counter of a link (R403). -/
def State.linkCount (s : State) (k : Nat) (c : VC) (n : Nat := 1) : State :=
  { s with trv := { s.trv with ctr := ctrAdd s.trv.ctr (k * 16 + c.num) n } }
/-- Raises a Traverse counter of the module (R403). -/
def State.trvCount (s : State) (c : VC) (n : Nat := 1) : State := s.linkCount 18 c n

/-- The port records of a module. -/
def Survey.portsOf (v : Survey) (m : Nat) : List SPort := v.ports.filter fun p => p.module == m
def SPort.has (p : SPort) (k : Nat) : Bool := p.members / 2 ^ k % 2 == 1

/-- The link record at one end of a link. -/
def Survey.linkAt (v : Survey) (m k : Nat) : Option SLink :=
  v.links.find? fun l => (l.modA == m && l.linkA == k) || (l.modB == m && l.linkB == k)

/-- The module and link at the other end. -/
def SLink.peer (l : SLink) (m k : Nat) : Nat × Nat :=
  if l.modA = m ∧ l.linkA = k then (l.modB, l.linkB) else (l.modA, l.linkA)

/-- The member links of a port of this module, ascending. -/
def State.members (s : State) (p : Nat) : List Nat :=
  match s.trv.survey with
  | none => []
  | some v =>
    match (v.portsOf s.own).find? fun x => x.port == p with
    | some x => (List.range 18).filter fun k => x.has k
    | none => []

/-- The port of this module that a link belongs to. -/
def State.portOf (s : State) (k : Nat) : Option Nat :=
  s.trv.survey.bind fun v => ((v.portsOf s.own).find? fun x => x.has k).map (·.port)

def State.activeMembers (s : State) (p : Nat) : List Nat := (s.members p).filter fun k => (s.tlink k).st == .active

/-- Whether a port counts as a dateline: any of its links is marked as one (R379). -/
def Survey.dateline (v : Survey) (m p : Nat) : Bool :=
  match (v.portsOf m).find? fun x => x.port == p with
  | some x => (List.range 18).any fun k => x.has k && ((v.linkAt m k).any fun l => l.line)
  | none => false

/-- The flits that a frame takes (R368), and its credits in units of 128 B (R369). -/
def EFrame.flits (e : EFrame) : Nat := ceilDiv e.len 640
def EFrame.units (e : EFrame) : Nat := ceilDiv e.len 128
/-- VC = 3 × SET + CLASS (R371). -/
def EFrame.vc (e : EFrame) : Nat := 3 * e.set + e.cls

/-- Whether a link takes a frame: credits of its channel (64 KiB), and at most 512 flits unacknowledged (R370, R371). -/
def TLink.room (l : TLink) (e : EFrame) : Bool :=
  decide (tget 0 l.used e.vc + e.units ≤ 512) && decide ((l.unacked.map (·.flits)).sum + e.flits ≤ 512) && !l.retrain

/-- What leaves, with its port, link, PSEQ and SET. -/
def Out.on (o : Out) (p k q set : Nat) : Out :=
  match o with
  | .traverse _ _ _ _ a b c d e f g h i j l => .traverse p k q set a b c d e f g h i j l
  | .forward _ _ _ _ a b c => .forward p k q set a b c
  | o => o

/-- Places a frame on a link (R370, R377). -/
def State.sendOn (s : State) (p k q : Nat) (e : EFrame) : State :=
  let s := s.emit (e.what.on p k q e.set)
  let s := s.modLink k fun l =>
    { l with send := (l.send + e.flits) % 4096, used := fput l.used e.vc (tget 0 l.used e.vc + e.units),
             unacked := l.unacked ++ [{ first := l.send, flits := e.flits, pseq := q, fr := e }] }
  let s := s.linkCount k .tx e.flits
  if e.parcel.isNone then s.trvCount .fwd else s

/-- The requester's index of a frame at the egress arbiter (R408). -/
def EFrame.who (e : EFrame) : Nat := match e.parcel with
  | some p => p + 1
  | none => 0

/-- The number of the 1,024 flit times in which the module is, of 156.25 × 10⁶ a second (R368, R382). That they begin at multiples of
1,024 flit times of the AON count is the model's choice (DESIGN CHOICE, log entry 125). -/
def State.flitWindow (s : State) : Nat := s.aon * 15625 / (1300 * 1024)

/-- The CLASS 0 flits that a port has sent in the present window. -/
def TPort.sysIn (x : TPort) (w : Nat) : Nat := if x.win = w then x.sys else 0

/-- Whether a frame must stay: its port is in FAILSET while the routes are computed; only events leave there (R391, R393). -/
def State.egressHeld (s : State) (p : Nat) (e : EFrame) : Bool :=
  s.trv.cl.running && s.trv.cl.failed.contains (s.own, p) && e.kind != 0x21 && e.kind != 0x22

/-- The first frame of a requester; transit frames are taken from the ingress ports in rotating order (R382). -/
def TPort.frameOf (x : TPort) (ok : List EFrame) (who : Nat) : Option EFrame :=
  if who = 0 then
    (rotPick 18 x.from_ ((ok.filter fun e => e.who == 0).map (·.ingress))).bind fun i => ok.find? fun e => e.who == 0 && e.ingress == i
  else ok.find? fun e => e.who == who

/-- One frame leaves a port, if any can (R382): CLASS 0 first, in at most 64 of each 1,024 flit times of a member link unless no other class
waits; else the choice of the weighted-fair arbiter. -/
def State.pumpOne (s : State) (p : Nat) : Option State :=
  let x := s.tport p
  match rotPick 18 x.turn (s.activeMembers p) with
  | none => none
  | some k =>
    let ok := x.queue.filter fun e => (s.tlink k).room e && !s.egressHeld p e
    let sh := (List.range 17).map fun i => s.share (128 + p) i
    let used := x.sysIn s.flitWindow
    let alone := x.queue.all fun e => e.cls == 0
    let arb := x.arb.turned sh ((ok.filter fun e => e.cls != 0).map (·.who))
    let pick : Option EFrame := match ok.find? fun e => e.cls == 0 && (alone || decide (used + e.flits ≤ 64 * (s.activeMembers p).length)) with
      | some e => some e
      | none =>
        let rest := ok.filter fun e => e.cls != 0
        (arb.pick sh (rest.map (·.who))).bind (x.frameOf rest)
    pick.map fun e =>
      let s := s.modPort p fun x =>
        { x with queue := x.queue.erase e, tx := (x.tx + 1) % 2 ^ 24, turn := (k + 1) % 18,
                 arb := if e.cls = 0 then x.arb else arb.charge sh e.who e.flits,
                 from_ := if e.cls ≠ 0 ∧ e.who = 0 then (e.ingress + 1) % 18 else x.from_,
                 win := s.flitWindow, sys := used + (if e.cls = 0 then e.flits else 0) }
      s.sendOn p k x.tx e

/-- Frames leave a port while they can. -/
def State.pump (s : State) (p : Nat) : Nat → State
  | 0 => s
  | n + 1 => match s.pumpOne p with
    | some s' => State.pump s' p n
    | none => s

/-- The port of the route to a destination in a set (R379). -/
def State.route (s : State) (dest set : Nat) : Option Nat :=
  (s.trv.routes.find? fun r => r.1 == 2 * dest + set).map (·.2)

/-- A DROP frame for a frame of TAG `tag` (R374, R375). -/
def dropPay (st : Status) (kind tag : Nat) : List Byte := natLe 2 st.toNat ++ natLe 1 kind ++ natLe 1 0 ++ natLe 4 tag

/-- Frames that no DROP answers (R375). -/
def noDrop (kind : Nat) : Bool := kind == 0x03 || kind == 0x04 || kind == 0x09

/-- HOPMAX and PLANGEN of the Survey Plan in force; 0 while there is none (R373, R380). -/
def State.planHead (s : State) : Nat × Nat := match s.trv.survey with
  | some v => (v.hopMax, v.planGen)
  | none => (0, 0)

/-- The header of a frame with the per-hop fields PSEQ and HOPS taken as 0 (R372, R373). -/
def trvHead (kind sparcel dparcel cls fver rsv7 dest src hops plangen len rsv18 tag addr : Nat) : List Byte :=
  natLe 1 kind ++ natLe 1 (sparcel + 16 * dparcel) ++ natLe 1 cls ++ natLe 1 fver ++ natLe 3 0 ++ natLe 1 rsv7 ++ natLe 2 dest
    ++ natLe 2 src ++ natLe 2 (hops / 4096 * 4096) ++ natLe 2 plangen ++ natLe 2 len ++ natLe 2 rsv18 ++ natLe 4 tag ++ natLe 8 addr

/-- A frame of this module as it leaves: HOPS is HOPMAX, PLANGEN the plan's, and the ECRC is computed (R372, R373, R380). Port 18 marks
what does not leave on a port. -/
def State.trvFrame (s : State) (kind cls dest dparcel sparcel tag addr : Nat) (pay : List Byte) : Out :=
  let h := s.planHead
  .traverse 18 18 0 0 kind cls dest dparcel sparcel tag addr h.1 h.2
    (crc32c (trvHead kind sparcel dparcel cls 1 0 dest s.own h.1 h.2 pay.length 0 tag addr ++ pay)) pay

/-- Sends a frame of this module along its route. One for this module itself is handed to it; one without a route is
discarded, and its DROP comes back to this module (R381). -/
def State.trvOut (s : State) (kind cls dest dparcel sparcel tag addr : Nat) (pay : List Byte) : State :=
  let o : Out := s.trvFrame kind cls dest dparcel sparcel tag addr pay
  if dest = s.own then s.emit o
  else
    match s.route dest 0 with
    | some p =>
      let set := match s.trv.survey with
        | some v => b2n (v.dateline s.own p)
        | none => 0
      let e : EFrame := { what := o, cls := cls, set := set, dest := dest, len := 36 + pay.length, kind := kind,
                          parcel := some sparcel, hops := s.planHead.1, ingress := 18 }
      (s.modPort p fun x => { x with queue := x.queue ++ [e] }).pump p ((s.tport p).queue.length + 1)
    | none =>
      let s := s.trvCount .dropped
      if noDrop kind then s
      else s.emit (s.trvFrame 0x09 0 s.own sparcel dparcel tag 0 (dropPay 0x0532#16 kind tag))

/-! ### Transport units (R414, R421) -/

/-- The bytes of a unit that the module sends. -/
def unitBytes (ukind mbox : Nat) (seq code : BitVec 16) (tag : BitVec 32) (pay : List Byte) : List Byte :=
  let b := natLe 2 0x584D ++ natLe 1 1 ++ natLe 1 ukind ++ natLe 1 mbox ++ natLe 1 0 ++ natLe 2 seq.toNat
    ++ natLe 2 code.toNat ++ natLe 2 pay.length ++ natLe 4 tag.toNat ++ pay
  b ++ natLe 4 (crc32c b).toNat

/-- The number by which a transport is told: 1 management Ethernet, 2 I3C, 3 Traverse (R436). -/
def transportNum : Transport → Nat
  | .mgmt => 1
  | .i3c => 2
  | .traverse => 3

/-- Whether a response (rather than a notification) waits at the I3C target, and the in-band interrupt's data byte. -/
def i3cByte (l : List (Bool × List Byte)) : Byte :=
  BitVec.ofNat 8 (b2n (l.any (·.1)) + 2 * b2n (l.any fun x => !x.1))

/-- Sends a unit to a source over its transport. Over I3C it becomes pending, responses before notifications, and an
in-band interrupt is raised when these are enabled (R421). Over the Traverse it is the payload of a MAILBOX frame
(R422): kind 5, CLASS 0. -/
def State.sendUnit (s : State) (dst : USource) (ukind mbox : Nat) (seq code : BitVec 16) (tag : BitVec 32)
    (pay : List Byte) : State :=
  match dst.transport with
  | .mgmt => s.emit (.unit mbox dst ukind seq code tag pay)
  | .i3c =>
    let x := (ukind == 2, unitBytes ukind mbox seq code tag pay)
    let l := s.i3c.pending
    let l' := if ukind == 2 then l.filter (·.1) ++ [x] ++ l.filter (fun y => !y.1) else l ++ [x]
    let s := { s with i3c := { s.i3c with pending := l' } }
    if s.i3c.ibi then s.emit (.ibi (i3cByte l')) else s
  | .traverse =>
    s.trvOut 0x05 0 dst.module.toNat ((dst.parcel.map (·.val)).getD 0) (if mbox < 16 then mbox else 0) tag.toNat 0
      (unitBytes ukind mbox seq code tag pay)

/-! ### Notifications (R426 to R431) -/

/-- The bytes of an entry (R426). -/
def Note.bytes (n : Note) : List Byte :=
  natLe 2 n.ncode ++ natLe 1 n.vector ++ natLe 1 (b2n n.overflow) ++ natLe 2 n.count ++ natLe 2 0 ++ natLe 6 n.first
    ++ natLe 2 0 ++ fit 0 16 n.detail

/-- The default vector of a code at a Parcel mailbox (R427). -/
def defaultVector (ncode : Nat) : Nat :=
  match ncode with
  | 0x0001 => 0
  | 0x0002 => 1
  | 0x0010 => 8
  | 0x0011 => 8
  | 0x0012 => 8
  | 0x0013 => 9
  | 0x0014 => 9
  | 0x0020 => 2
  | 0x0021 => 2
  | 0x0022 => 2
  | 0x0030 => 3
  | 0x0040 => 4
  | _ => 5

/-- The codes of R427 that a Parcel mailbox is sent. -/
def parcelCodes : List Nat := [0x0001, 0x0002, 0x0010, 0x0011, 0x0012, 0x0013, 0x0014, 0x0020, 0x0021, 0x0022, 0x0030,
  0x0040, 0x0041]

/-- Whether an event of a code is never coalesced (R427). TASK_DONE carries its STATUS in bytes 4 and 5 of DETAIL. -/
def neverCoalesced (ncode : Nat) (detail : List Byte) : Bool :=
  ncode == 0x0002 || ncode == 0x0021 || ncode == 0x0040 || ncode == 0x0041 || (ncode == 0x0001 && le detail 4 2 != 0)

/-- The vector of a code at a mailbox: fixed at the maintenance mailbox (R427), assigned at a Parcel's (R429). -/
def State.vectorOf (s : State) (m ncode : Nat) : Nat :=
  if m = 16 then ncode % 64 else tget (defaultVector ncode) (s.box m).vecOf ncode

/-- A doorbell frame for one entry (R431). The module number is 0xFFFF while no Survey Plan is in force. -/
def State.doorbell (s : State) (m : Nat) (seq : BitVec 16) (vec : Nat) : State :=
  let b := s.box m
  if b.net = 0 then s
  else
    (s.emit (.doorbell b.net b.bellAddr b.bellUdp
      (natLe 2 0x5844 ++ natLe 1 1 ++ natLe 1 m ++ natLe 2 seq.toNat ++ natLe 1 vec ++ natLe 1 0
        ++ natLe 2 b.queue.length ++ natLe 2 s.modNum ++ natLe 4 0))).boxCount m .doorbells

/-- An entry enters the completion queue, or is lost when it finds the queue full (R430): 1,024 entries, and 8 more for
codes that are never coalesced. The 13,000 ticks of a resend count from the entry that found the queue empty. -/
def State.emitNote (s : State) (m : Nat) (n : Note) : State :=
  let b := s.box m
  let cap := if neverCoalesced n.ncode n.detail then 1032 else 1024
  if cap ≤ b.queue.length then
    (s.modBox m fun b => { b with lost := true, status := setB b.status 5 }).boxCount m .lost
  else
    let n := { n with overflow := b.lost }
    let seq := b.nseq
    let t := if b.queue.isEmpty then s.aon else b.resent
    let s := (s.modBox m fun b => { b with lost := false, nseq := b.nseq + 1, queue := b.queue ++ [(seq, n)], resent := t }).boxCount
      m .sent
    let s := match b.bound with
      | some dst => s.sendUnit dst 3 m seq 0 0 n.bytes
      | none => s
    s.doorbell m seq n.vector

/-- The pending entry of a pair of vector and code is emitted. -/
def State.flushNote (s : State) (m vec ncode : Nat) : State :=
  let b := s.box m
  match b.pendN.find? (fun x => x.vector == vec && x.ncode == ncode) with
  | none => s
  | some x => (s.modBox m fun b => { b with pendN := b.pendN.erase x }).emitNote m x

/-- An event of a code at a mailbox (R428, R429). Events for a Parcel in RESETTING are discarded (R432). -/
def State.notify (s : State) (m ncode : Nat) (detail : List Byte) : State :=
  if m < 16 ∧ (s.parcel m).st = .resetting ∧ ncode ≠ 0x0002 then s
  else
    let vec := s.vectorOf m ncode
    let fresh : Note := { ncode := ncode, vector := vec, overflow := false, count := 1, first := s.aon % 2 ^ 48,
                          detail := detail }
    if neverCoalesced ncode detail then s.emitNote m fresh
    else
      let b := s.box m
      let th := tget 1 b.cthresh vec
      let ct := tget 0 b.ctime vec
      if th ≤ 1 ∨ ct = 0 then s.emitNote m fresh
      else
        match b.pendN.find? (fun x => x.vector == vec && x.ncode == ncode) with
        | none => s.modBox m fun b => { b with pendN := b.pendN ++ [fresh] }
        | some x =>
          let x' := { x with count := satAdd 0xFFFF x.count 1, detail := detail }
          let s := (s.modBox m fun b => { b with pendN := b.pendN.map fun y => if y = x then x' else y }).boxCount m
            .merged
          if th ≤ x'.count then s.flushNote m vec ncode else s

/-! ### Time -/

/-- The stacks whose first Tier W write waits (R327). -/
def Mem.waitingStacks (m : Mem) : List Nat :=
  ((List.range 16).map (20 + ·)).filter fun k => match m.wjobs.find? fun j => j.stack == k with
    | some j => !j.busy
    | none => false

/-- The AON time at which a command takes effect; it never goes back. Time in SAG or ABORT is counted (R500), and the time
for which Tier W writes wait on the sag rule (R331). -/
def State.tickTo (s : State) (t : Nat) : State :=
  let d := t - s.aon
  let s' := { s with aon := max s.aon t }
  if d = 0 ∨ s.nv ∨ !s.pwr.powered then s'
  else s.mem.waitingStacks.foldl (fun x k => x.memCount k .sagWait d) (s'.modCount .sagAon d)

end Sys2Proof.Machine
end

