-- ==== Sys2Proof/Machine/Requests.lean ====
section
/-!
DEFINITION. The ends of things that other units bring about: killing a Station (R259), cancelling a task (R282), the end
of a graph instance (R347, R427) and the end of a request (R339 to R343).
-/

namespace Sys2Proof.Machine

/-! ### Tokens (R279) -/

/-- A completion token. -/
def tokenWord (serial parcel : Nat) (cancel cnt : Bool) (facet taskid module : Nat) : BitVec 64 :=
  BitVec.ofNat 64 ((serial % 2 ^ 24) <<< 40 + (parcel % 16) <<< 36 + b2n cancel <<< 35 + b2n cnt <<< 34 + (facet % 4) <<< 32
    + (taskid % 4096) <<< 20 + (module % 4096) <<< 8)

/-- Sends the token of one successor entry (R267, R279): within the module as a token, to another module as a TOKEN
frame, kind 4, CLASS 2 (R374). -/
def State.sendToken (s : State) (d : Desc) (cancel : Bool) (succ : Nat) : State :=
  let ty := bits succ 31 30
  let cnt := bits succ 29 29 == 1
  let fc := bits succ 28 27
  let tid := bits succ 26 15
  let md := bits succ 14 3
  if ty = 0 then s
  else if ty = 3 then
    s.trvOut 0x04 2 md d.parcel d.parcel 0 0 (natLe 8 (tokenWord d.serial d.parcel cancel cnt fc tid md).toNat)
  else
    s.emit (.token (if ty = 1 then d.facet else fc)
      (tokenWord d.serial d.parcel cancel cnt (if ty = 1 then d.facet else fc) tid 0))

/-- Sends the tokens of all successor entries of a descriptor. -/
def State.sendTokens (s : State) (d : Desc) (cancel : Bool) : State :=
  (d.succs.take d.nsucc).foldl (fun s x => s.sendToken d cancel x) s

/-! ### Killing a Station (R259) -/

/-- The core of a Station whose task is abandoned: no operation is in flight and the registers, counters and generators
stand. Planes, banks, slots and the scratchpad are cleared by the scrub that follows. -/
def StCore.abandon (c : StCore) : StCore :=
  { c with task := .empty, tree := [], drains := [], fills := [], packs := [], terns := [], strips := [], recs := [], fins := [],
           dmas := [], pend := [], moved := [], spw := [], accs := [], load := none, bruns := [], loops := [],
           stnStatus := c.stnStatus &&& ~~~ 0x21#32 }

/-- Grenlor kills the task of a Station: nothing more issues, and its scrub begins (R259). -/
def State.killStation (s : State) (n : Nat) : State :=
  let s := s.modStn n fun x =>
    { x with core := x.core.abandon, snap := none, ops := [], doubt := none, rerun := none, held := none, replay := none, queued := [],
             mode := .scrub, wc := [] }
  { s with mem := { s.mem with acks := s.mem.acks.filter fun a => a.2.1 != n } }

/-- A Parcel's Station set: the Stations that the plan gives it, less those that a kill has put in their scrub (R259, R410). -/
def State.stationSet (s : State) (p : Nat) : BitVec 64 :=
  (List.range 64).foldl (fun v n => if (s.stn n).mode == .scrub then v &&& ~~~ (1#64 <<< n) else v) (s.parcel p).stations

/-- The Parcel to which the plan gives a Station (R410). -/
def State.holder (s : State) (n : Nat) : Option Nat :=
  (List.range 16).find? fun p => (s.parcel p).st != .absent && (s.parcel p).stations.getLsbD n

/-- Whether a READY task other than a known-answer test names a Station (R287, R487). -/
def State.hasTask (s : State) (n : Nat) : Bool := s.trk.table.any fun e =>
  e.1 / 4096 == facetOf n && e.2.st == .ready && e.2.desc.kind != 5 && e.2.desc.stmask.testBit (n % 16)

/-- Whether a READY task names a Station, or its known-answer test is due (R276, R487). -/
def State.hasWork (s : State) (n : Nat) : Bool :=
  (s.stn n).katDue || s.trk.table.any fun e =>
    e.1 / 4096 == facetOf n && e.2.st == .ready && e.2.desc.stmask.testBit (n % 16)

/-! ### Instances -/

/-- DETAIL of TASK_DONE (R427). -/
def taskDoneDetail (d : Desc) (st : Status) : List Byte :=
  natLe 4 d.serial ++ natLe 2 st.toNat ++ natLe 2 d.taskid ++ natLe 1 d.facet

/-- DETAIL of TASK_DONE for a graph (R427): the first of its tasks that failed and its status, with none the last task and its
status (DESIGN CHOICE, log entry 114). -/
def graphDetail (i : Instance) (d : Desc) (st : Status) : List Byte :=
  match i.failed with
  | some x => taskDoneDetail { d with facet := x.1, taskid := x.2.1 } x.2.2
  | none => taskDoneDetail d st

/-- The states of a request that is live (R342). -/
def Request.live (q : Request) : Bool :=
  q.st == .receiving || q.st == .queued || q.st == .prefill || q.st == .shipping || q.st == .decode

/-- A recipe that is bound to a Parcel. -/
def State.recipe (s : State) (p num : Nat) : Option Recipe :=
  ((s.parcel p).recipes.find? fun r => r.1 == num).map (·.2)

/-- The Gate job of a request after its decode step (R356). Where the logits lie is not stated: a free value. -/
def State.jobOf (s : State) (r : Nat) : GateJob :=
  let q := s.req r
  { logits := Config.gateLogits q.serial q.step, v := ((s.recipe q.parcel q.blk.recipe).map (·.v)).getD 0,
    req := r, parcel := q.parcel, temp := q.blk.temp, topp := q.blk.topp, topk := q.blk.topk, gstate := q.gstate,
    serial := q.serial, step := q.step, maskid := q.blk.maskid, gramid := q.blk.gramid, kat := false }

/-- An instance leaves its Parcel's list. -/
def State.dropInst (s : State) (p serial : Nat) : State :=
  s.modParcel p fun q => { q with insts := q.insts.filter fun i => i.serial != serial }

/-- The last task of an instance, `d`, has left the trackers: a run graph ends with a TASK_DONE notification (R427). When none of its
tasks has failed, a prefill graph takes its request to DECODE, or leaves it to be handed over when the pool is separate (R340,
R344), and after a decode step the Gate of the Facet takes one job for each request of the set. -/
def State.instanceEnd (s : State) (i : Instance) (d : Desc) (st : Status) : State :=
  let detail := graphDetail i d st
  let s := s.dropInst d.parcel i.serial
  if i.ownkind = 2 then s.notify d.parcel 0x0001 detail
  else if i.failed.isSome then s
  else if i.ownkind = 0 then
    (if (s.req i.owner).st = .prefill then
      (if (s.parcel d.parcel).role = 0 then s.modReq i.owner fun q => { q with waitRoom := true }
       else s.modReq i.owner fun q => { q with st := .decode })
     else s)
  else
    (tget [] s.trk.batch i.owner).foldl (fun s r =>
      if (s.req r).st = .decode then s.modGate d.facet fun g => { g with queue := g.queue ++ [s.jobOf r] } else s) s

/-- An instance after the end of its task (f, t): the first that ends with a status other than success is noted, but for an audit that
expires, after which the request continues (R204). -/
def Instance.without (i : Instance) (f t : Nat) (st : Status) : Instance :=
  { i with tasks := i.tasks.filter fun x => x != (f, t),
           failed := if i.failed.isNone && !statusOk st && st != 0x0753#16 && i.tasks.contains (f, t) then some (f, t, st)
             else i.failed }

/-- An entry leaves its tracker's table and its instance (R274). -/
def State.freeEntry (s : State) (f t : Nat) (st : Status) : State :=
  let e := s.entry f t
  let s := s.setEntry f t .free
  let d := e.desc
  let has := (s.parcel d.parcel).insts.any fun i => i.serial == d.serial && i.tasks.contains (f, t)
  let s := s.modParcel d.parcel fun p =>
    { p with insts := p.insts.map fun i => if i.serial = d.serial then i.without f t st else i }
  match (if has then (s.parcel d.parcel).insts.find? fun i => i.serial == d.serial && i.tasks.isEmpty else none) with
  | some i => s.instanceEnd i d st
  | none => s

/-- Cancels one task (R282): a RUNNING one is killed, cancel tokens go to its successors, its entry is freed without a
completion record. -/
def State.cancelEntry (s : State) (f t : Nat) (st : Status) : State :=
  let e := s.entry f t
  if e.st = .free then s
  else
    let s := match e.st, e.stn with
      | .running, some n => s.killStation n
      | _, _ => s
    let s := s.sendTokens e.desc true
    (s.freeEntry f t st).trkCount f .cancelled

/-- Cancels every task for which `p` holds, in the order of the tables. -/
def State.cancelWhere (s : State) (st : Status) (p : Desc → Bool) : State :=
  (tkeys s.trk.table).foldl (fun s k =>
    if (s.entry (k / 4096) (k % 4096)).st ≠ .free ∧ p (s.entry (k / 4096) (k % 4096)).desc then
      s.cancelEntry (k / 4096) (k % 4096) st else s) s

/-! ### The end of a request (R339, R342, R343) -/

/-- A frame to the client of a request, discarded when no serving link is up (R539). A remote entry's frames carry the admitting MODULE
and REQ (R344). -/
def State.toClient (s : State) (r kind : Nat) (st : Status) (offset : Nat) (pay : List Byte) : State :=
  let q := s.req r
  let m := match q.remote with
    | some x => x
    | none => (s.own, r)
  let s := match s.servPort q.port with
    | some p => s.emit (.serving p q.addr q.udp kind (q.frames % 65536) q.tag m.2 true st m.1 offset pay)
    | none => s
  s.modReq r fun q => { q with frames := q.frames + 1 }

/-- The END payload (R339). FIRST_AON of a request that has sent no TOKENS frame is not stated: a free value. -/
def endPayload (q : Request) (now free : Nat) : List Byte :=
  let first := match q.firstTok with
    | some x => x - q.accept
    | none => Config.freeNat free
  natLe 4 q.gen.length ++ natLe 4 q.blk.nctx ++ natLe 2 q.qual ++ natLe 2 0 ++ natLe 4 (min 0xFFFFFFFF first)
    ++ natLe 4 (min 0xFFFFFFFF (now - q.accept)) ++ natLe 4 0 ++ natLe 8 0

/-- The requests of a batch set. -/
def State.setOf (s : State) (b : Nat) : List Nat := tget [] s.trk.batch b

/-- Whether a task belongs to request `r` alone, or to a batch set of which `r` is a member and no member is live. -/
def State.ownedAlone (s : State) (r : Nat) (d : Desc) : Bool :=
  (d.ownkind == 0 && d.owner == r)
    || (d.ownkind == 1 && (s.setOf d.owner).contains r && (s.setOf d.owner).all fun x => !(s.req x).live)

/-- The requests that own a task: the request, the batch set's, or none (R264, R273). -/
def State.ownersOf (s : State) (d : Desc) : List Nat :=
  if d.ownkind = 0 then [d.owner]
  else if d.ownkind = 1 then s.setOf d.owner else []

/-- The other modules that the successor entries of a request's tasks in this module's trackers name (R267). -/
def State.taskModules (s : State) (r : Nat) : List Nat :=
  s.trk.table.flatMap fun e =>
    if e.2.st != .free && (s.ownersOf e.2.desc).contains r then
      (e.2.desc.succs.take e.2.desc.nsucc).filterMap fun x =>
        if bits x 31 30 = 3 ∧ bits x 14 3 ≠ s.own then some (bits x 14 3) else none
    else []

/-- Where REQ_END goes at the end of a request, each a module and a Parcel there: the decode module of a hand-over (R344) and, for a
request admitted here, the modules that hold its tasks (R397). The admitting module knows those by its tasks' successor entries
(DESIGN CHOICE, log entry 151). -/
def State.endTargets (s : State) (r : Nat) : List (Nat × Nat) :=
  let q := s.req r
  let d := match q.dest with
    | some (m, p, _) => if m = s.own then [] else [(m, p)]
    | none => []
  if q.remote.isSome then d
  else d ++ (((s.taskModules r).eraseDups.filter fun m => !d.any fun x => x.1 == m).map fun m => (m, q.parcel))

/-- A request ends with a status: it becomes ENDING, its END frame is sent, and the tasks it owns alone are cancelled
(R282, R342). At the modules that hold its tasks it is ended with a REQCTL frame of OP 3 (R374, R397). -/
def State.requestEnd (s : State) (r : Nat) (st : Status) (off : Nat := 0) : State :=
  let q := s.req r
  if !q.live then s
  else
    let pay := endPayload q s.aon s.free
    let s := { s with free := s.free + 1 }
    let s := s.toClient r 0x83 st off pay
    let s := s.modReq r fun q => { q with st := .ending, endAt := s.aon, lastEnd := s.aon, endSends := 1, endSt := st,
                                          endPay := pay, endOff := off, segs := [], waitRoom := false }
    let s := s.modParcel q.parcel fun p => { p with queue := p.queue.filter fun x => x != r }
    let s := (s.endTargets r).foldl (fun s x => s.trvOut 0x06 0 x.1 x.2 q.parcel 0 0
      (natLe 1 3 ++ natLe 1 0 ++ natLe 2 r ++ natLe 2 s.own ++ natLe 2 st.toNat ++ natLe 8 0)) s
    s.cancelWhere st fun d => s.ownedAlone r d

/-- Every owner of a task ends with a status. -/
def State.endOwners (s : State) (d : Desc) (st : Status) : State :=
  (s.ownersOf d).foldl (fun s r => s.requestEnd r st) s

/-! ### Completion records (R288) -/

/-- Appends a completion record to Grenlor's queue (R288). -/
def State.putRecord (s : State) (r : List Byte) : State := { s with trk := { s.trk with records := s.trk.records ++ [r] } }

/-- The record that a task kept while its pages move (R316), with its status, FAULT_ADDR, FAULT_INDEX and RUN_AON at the end (R288,
R289). -/
def movedRecord (st : Status) (addr idx aon : Nat) (r : List Byte) : List Byte :=
  natLe 2 st.toNat ++ (r.drop 2).take 14 ++ natLe 8 addr ++ natLe 2 idx ++ (r.drop 26).take 34 ++ natLe 4 (min 0xFFFFFFFF aon)

end Sys2Proof.Machine
end

