-- ==== Sys2Proof/Machine/Range.lean ====
section
/-!
DEFINITION. The Range: addresses and the page map (R293 to R296), the translation caches (R548), reads and writes with
their checks (R296, R319, R326), write combining (R311, R312), windows to other modules (R383, R384) and the handling of
uncorrectable errors (R319 to R321).
-/

namespace Sys2Proof.Machine

/-! ### Addresses -/

def rpageOf (addr : Nat) : Nat := addr / 2 ^ 21 % 2 ^ 23

/-- RPAGE bits [22:19] are 0xF: the system region (R293). -/
def isSystem (addr : Nat) : Bool := rpageOf addr / 2 ^ 19 == 0xF

/-- RPAGE bits [22:19] are 0xE: the window region (R383). -/
def isWindow (addr : Nat) : Bool := rpageOf addr / 2 ^ 19 == 0xE

/-- The number of a stack: 0–3 N, 4–19 H, 20–35 W (the numbering of R427). -/
def stackNum (loc k : Nat) : Nat := if loc = 0 then k else if loc = 1 then 4 + k else 20 + k

/-- The physical key of a byte of a frame. -/
def physKey (stack frame off : Nat) : Nat := stack * 2 ^ 38 + frame * 2 ^ 21 + off

/-- Where a Range address is kept: the frame its page entry names, or the system region (kept under stack number 36). -/
def State.phys (s : State) (addr : Nat) : Nat :=
  if isSystem addr then 36 * 2 ^ 38 + addr % 2 ^ 44
  else
    let e := s.page (rpageOf addr)
    physKey (stackNum e.loc e.lstack) e.lframe (addr % 2 ^ 21)

/-! ### Bytes of memory -/

/-- A byte of memory by physical key; a byte that nothing has written reads as 0 (R301, R328). -/
def Mem.get (m : Mem) (k : Nat) : Byte := tget 0 m.cells k

def Mem.put (m : Mem) (k : Nat) (b : Byte) : Mem := { m with cells := mset 0 m.cells k b }

/-- The canonical form of memory. -/
def Mem.wf (m : Mem) : Bool := Tab.wf 0 m.cells

/-- Writes bytes from physical key `k` on. -/
def Mem.puts (m : Mem) (k : Nat) : List Byte → Mem
  | [] => m
  | b :: r => (m.put k b).puts (k + 1) r

/-- The byte at a Range address. -/
def State.rbyte (s : State) (a : Nat) : Byte := s.mem.get (s.phys a)

/-- `len` bytes of the Range from `a` on. -/
def State.rbytes (s : State) (a len : Nat) : List Byte := (List.range len).map fun i => s.rbyte (a + i)

/-- Writes bytes to the Range from `a` on. -/
def State.rput (s : State) (a : Nat) (bs : List Byte) : State :=
  { s with mem := ((List.range bs.length).zip bs).foldl (fun m p => m.put (s.phys (a + p.1)) p.2) s.mem }

/-- Copies, zeroes or compares whole frames: removes every listed byte of a frame. -/
def Mem.clearFrame (m : Mem) (stack frame : Nat) : Mem :=
  { m with cells := m.cells.filter fun c => c.1 / 2 ^ 21 != stack * 2 ^ 17 + frame }

/-- Copies the bytes of one frame to another, whose own bytes are replaced. -/
def Mem.copyFrame (m : Mem) (stack frame stack' frame' : Nat) : Mem :=
  let src := m.cells.filter fun c => c.1 / 2 ^ 21 == stack * 2 ^ 17 + frame
  src.foldl (fun m c => m.put (physKey stack' frame' (c.1 % 2 ^ 21)) c.2) (m.clearFrame stack' frame')

/-! ### Paths between dies (R20, R307) -/

def State.seamUp (s : State) (k : Nat) : Bool := (tget .reset s.seams k).service

/-- The seam between neighbouring Facets f and f + 1, and that between a Facet and a Girdle (R443). -/
def ffSeam (f : Nat) : Nat := f % 4
def fgSeam (f g : Nat) : Nat := 4 + 2 * (f % 4) + g

/-- Whether Facets f and g are neighbours whose seam is in service. -/
def State.ffUp (s : State) (f g : Nat) : Bool :=
  if (f + 1) % 4 = g % 4 then s.seamUp (ffSeam f) else if (g + 1) % 4 = f % 4 then s.seamUp (ffSeam g) else false

def State.viaGirdle (s : State) (f g : Nat) : Bool :=
  (s.seamUp (fgSeam f 0) && s.seamUp (fgSeam g 0)) || (s.seamUp (fgSeam f 1) && s.seamUp (fgSeam g 1))

/-- Whether a path remains between two Facets for a Range address (R20, R307). -/
def State.pathFF (s : State) (f g addr : Nat) : Bool :=
  if f = g then true
  else if (f + 2) % 4 = g then
    let m := if addr / 2 ^ 21 % 2 = 0 then (f + 1) % 4 else (f + 3) % 4
    (s.ffUp f m && s.ffUp m g) || s.viaGirdle f g
  else s.ffUp f g || s.viaGirdle f g

/-- Whether a path remains between a Facet and a Girdle (R20). -/
def State.pathFG (s : State) (f g : Nat) : Bool :=
  s.seamUp (fgSeam f g) || (s.ffUp f ((f + 1) % 4) && s.seamUp (fgSeam (f + 1) g))
    || (s.ffUp f ((f + 3) % 4) && s.seamUp (fgSeam (f + 3) g))

/-- Whether a path remains from a Facet to a stack. -/
def State.pathTo (s : State) (f stack addr : Nat) : Bool :=
  if stack < 4 then s.pathFF f stack addr
  else if stack < 20 then s.pathFF f ((stack - 4) / 4) addr
  else s.pathFG f ((stack - 20) / 8)

/-! ### Checks (R296, R319, R320, R326) -/

/-- The pages that `len` bytes from `a` touch. -/
def pagesOf (a len : Nat) : List Nat :=
  if len = 0 then [] else (List.range ((a + len - 1) / 2 ^ 21 - a / 2 ^ 21 + 1)).map fun i => a / 2 ^ 21 + i

/-- The window entry of a Parcel that maps a window page (R383). -/
def Parcel.windowAt (p : Parcel) (rpage : Nat) : Option Window :=
  (p.windows.find? fun w => decide (w.2.base ≤ rpage ∧ rpage < w.2.base + w.2.pages)).map (·.2)

/-- Whether a Parcel may read a page (R296). -/
def State.mayRead (s : State) (p rpage : Nat) : Bool :=
  let e := s.page rpage
  e.valid && (e.owner == p || (e.cls == .wShared && e.share.getLsbD p))

/-- The status with which a read or a write of a page is refused by the page entry (R296, R383, R384). -/
def State.pageCheck (s : State) (write : Bool) (p rpage : Nat) : Option Status :=
  if rpage / 2 ^ 19 = 0xE then
    match (s.parcel p).windowAt rpage with
    | some w => if write && w.perm % 2 == 1 then none else some 0x0610#16
    | none => some 0x0610#16
  else if rpage / 2 ^ 19 = 0xF then some 0x0610#16
  else if !s.mayRead p rpage then some 0x0610#16
  else
    let e := s.page rpage
    if write && !(e.cls == .d && e.owner == p) then some 0x0611#16 else none

/-- The first page that refuses an access, as a status and an address (R296). -/
def State.rangeCheck (s : State) (write : Bool) (p a len : Nat) : Option (Status × Nat) :=
  (pagesOf a len).findSome? fun g => (s.pageCheck write p g).map fun st => (st, max a (g * 2 ^ 21))

/-- Whether reads of a page meet its poison: one that a reload restores stays poisoned (R321). -/
def PageEntry.bad (e : PageEntry) : Bool := e.st == .poisoned || (e.cls == .wShared && e.st == .restoring)

/-- What the stack of a page answers: refused when hot (R326), no path (R20), out of service (R305), poisoned. -/
def State.stackCheck (s : State) (facet rpage : Nat) : Option Status :=
  if rpage / 2 ^ 19 = 0xE ∨ rpage / 2 ^ 19 = 0xF then none
  else
    let e := s.page rpage
    let k := stackNum e.loc e.lstack
    if !s.pathTo facet k (rpage * 2 ^ 21) then some 0x0540#16
    else if !(s.stack k).status.getLsbD 4 then some 0x0383#16
    else if (s.stack k).refuse then some 0x0410#16
    else if e.bad then some (if e.cls = .wPrivate then 0x0382#16 else 0x0381#16)
    else none

/-- The Girdle that a Traverse link is wired to (R17): T0 to T8 to Girdle 0, T9 to T17 to Girdle 1. -/
def linkGirdle (k : Nat) : Nat := k / 9

/-- Whether a path remains from a Facet to a link of the port by which frames to a module leave (R17, R20). A port without ACTIVE links, and
a module without a route, are matters of the Traverse. -/
def State.trvReach (s : State) (f dest : Nat) : Bool :=
  match s.route dest 0 with
  | none => true
  | some p => (s.activeMembers p).isEmpty || (s.activeMembers p).any fun k => s.pathFG f (linkGirdle k)

/-- What refuses a posted write of the Range (R20, R296, R305, R326): the page's owner and class, the path, the stack; of a window page the
path to the Traverse. -/
def State.writeCheck (s : State) (n p a len : Nat) : Option (Status × Nat) :=
  match s.rangeCheck true p a len with
  | some x => some x
  | none => (pagesOf a len).findSome? fun g =>
      match (match (s.parcel p).windowAt g with
        | some w => if g / 2 ^ 19 = 0xE ∧ !s.trvReach (facetOf n) w.module then some 0x0540#16 else s.stackCheck (facetOf n) g
        | none => s.stackCheck (facetOf n) g) with
      | some st => if st = 0x0381#16 ∨ st = 0x0382#16 then none else some (st, max a (g * 2 ^ 21))
      | none => none

/-- The first poisoned sector that an access reads (R319). -/
def State.poisonAt (s : State) (a len : Nat) : Option Nat :=
  if len = 0 then none
  else ((List.range ((a + len - 1) / 64 - a / 64 + 1)).map fun i => (a / 64 + i) * 64).find? fun b =>
    s.mem.poison.contains (s.phys b / 64)

/-! ### Translation caches (R548) -/

/-- A cache of `cap` entries after an access to a page: the page first, the least recently used last. -/
def cacheTouch (cap : Nat) (c : List Nat) (g : Nat) : List Nat := (g :: c.erase g).take cap

/-- A page's entry leaves every cache. -/
def State.invalidate (s : State) (g : Nat) : State :=
  { s with stns := s.stns.map fun x => (x.1, { x.2 with cache := x.2.cache.erase g }),
           gates := s.gates.map fun x => (x.1, { x.2 with cache := x.2.cache.erase g }) }

/-- The entries of a Parcel's pages leave every cache: its mapping generation rises (R548). -/
def State.invalidateParcel (s : State) (p : Nat) : State :=
  let keep (c : List Nat) : List Nat := c.filter fun g => !s.mayRead p g
  { s with stns := s.stns.map fun x => (x.1, { x.2 with cache := if x.2.owner = some p then [] else keep x.2.cache }),
           gates := s.gates.map fun x => (x.1, { x.2 with cache := keep x.2.cache }) }

/-- Replaces a page entry; its copies leave every cache (R295, R548). -/
def State.setPage (s : State) (g : Nat) (e : PageEntry) : State :=
  { s with mem := { s.mem with pages := fput s.mem.pages g e } }.invalidate g

/-- An access reaches a stack; one that arrives during self-refresh starts the exit (R488). -/
def State.noteAcc (s : State) (k : Nat) : State := s.modStack k fun x => { x with lastAcc := s.aon, selfRef := false }

/-- Notes the access in the stack of each page (R488), and for a shared working copy when it was last read (R315). -/
def State.noteRead (s : State) (g : Nat) : State :=
  let e := s.page g
  if g / 2 ^ 19 = 0xE ∨ g / 2 ^ 19 = 0xF then s
  else
    let s := s.noteAcc (stackNum e.loc e.lstack)
    if e.cls = .wShared ∧ e.loc ≠ 2 then { s with mem := { s.mem with workRead := fput s.mem.workRead g s.aon } } else s

def State.touchPages (s : State) (n a len : Nat) : State :=
  let gs := (pagesOf a len).filter fun g => g / 2 ^ 19 < 0xE
  gs.foldl State.noteRead (s.modStn n fun x => { x with cache := gs.foldl (cacheTouch 64) x.cache })

/-- Whether bytes lie in a page that moves: their writer freezes until the flip (R317). -/
def State.movingAt (s : State) (a len : Nat) : Bool := (pagesOf a len).any fun g => g / 2 ^ 19 < 0xE && (s.page g).st == .moving

/-! ### Frames and the writes of Tier W (R294, R301, R323, R327) -/

def framesOf (k : Nat) : Nat := if k < 4 then 16384 else if k < 20 then 32768 else 98304

/-- The number of a frame in `tags` and `zeroing`. -/
def frameKey (k f : Nat) : Nat := k * 2 ^ 17 + f

/-- The stack of a move's target. -/
def Move.dest (m : Move) : Nat := stackNum m.ttier m.tstack

/-- The first job of a stack. -/
def State.wjob (s : State) (k : Nat) : Option WJob := s.mem.wjobs.find? fun j => j.stack == k

/-- Whether a Tier W write may start on a stack (R305, R324, R327, R512). -/
def State.mayWrite (s : State) (k : Nat) : Bool :=
  s.nv && !(s.stack k).suspend && (s.stack k).status.getLsbD 4
    && (tget .reset s.dep.dies (4 + (k - 20) / 8)).band == 0

/-- The first job of a stack starts its next write, if it may. -/
def State.startW (s : State) (k : Nat) : State :=
  match s.wjob k with
  | none => s
  | some j =>
    if j.busy ∨ !s.mayWrite k then s
    else
      { s with mem := { s.mem with wjobs := s.mem.wjobs.map fun x => if x = j then { x with busy := true } else x } }

def State.addJob (s : State) (j : WJob) : State :=
  { s with mem := { s.mem with wjobs := s.mem.wjobs ++ [j] } }.startW j.stack

/-- A frame leaves a page: it is to be zeroed, or erased in Tier W (R323). -/
def State.releaseFrame (s : State) (k f : Nat) : State :=
  let x := frameKey k f
  let s := { s with mem := { s.mem with zeroing := x :: s.mem.zeroing.erase x } }
  if k < 20 then s
  else
    s.addJob { stack := k, frame := f, rpage := 0, why := .erase, erase := true, chunks := 0, data := 0, tag := none,
               busy := false }

/-! ### Moves that end early (R315 to R317) -/

def State.dropMove (s : State) (m : Move) : State := { s with mem := { s.mem with moves := s.mem.moves.erase m } }

/-- Whether the task of a move is still there; Grenlor's own moves have Facet 4. -/
def State.moveAlive (s : State) (m : Move) : Bool :=
  decide (4 ≤ m.facet) || (let e := s.entry m.facet m.tid; e.st == .running && e.stn.isNone && decide (0 < e.moves))

/-- The STATE of a page at the end of a move or program: an unmap that waited for it begins (R297, R317). -/
def State.settled (s : State) (g : Nat) : PState := if s.mem.unmaps.any fun u => u.1 == g then .unmapPending else .resident

/-- A started move is abandoned: its destination is zeroed, a Tier W write under way ending first; the page stays at its source
(R317). -/
def State.abandonMove (s : State) (m : Move) : State :=
  let e := s.page m.rpage
  let s := if e.st = .moving ∨ e.st = .programming then s.setPage m.rpage { e with st := s.settled m.rpage } else s
  if m.ttier < 2 then s.releaseFrame m.dest m.dframe
  else match s.mem.wjobs.find? fun j => j.stack == m.dest && j.frame == m.dframe with
    | none => s
    | some j =>
      if j.busy then
        { s with mem := { s.mem with wjobs := s.mem.wjobs.map fun y => if y = j then { j with why := .abandoned } else y } }
      else ({ s with mem := { s.mem with wjobs := s.mem.wjobs.erase j } }).releaseFrame j.stack j.frame

/-- A move ends its task with a status: the pages moved before it stand, the others stay (R315, R317). -/
def State.moveFail (s : State) (m : Move) (st : Status) (addr : Nat := 0) : State :=
  let alive := s.moveAlive m
  let s := (if m.started then s.abandonMove m else s).dropMove m
  if !alive ∨ 4 ≤ m.facet then s
  else
    let e := s.entry m.facet m.tid
    let s := { s with mem := { s.mem with moves := s.mem.moves.filter fun x => x.facet != m.facet || x.tid != m.tid } }
    ((s.putRecord (movedRecord st addr 0 (s.aon - e.since) e.rec0)).freeEntry m.facet m.tid st).endOwners e.desc st

/-- Every started move for which `p` holds fails with a status (R305, R317, R326). -/
def State.failMoves (s : State) (p : Move → Bool) (st : Status) (addr : Nat := 0) : State :=
  (s.mem.moves.filter fun m => m.started && p m).foldl (fun s m => s.moveFail m st addr) s

/-! ### Poison and mirrors (R319 to R321) -/

/-- DETAIL of the weight notifications (R427). -/
def weightDetail (rpage : Nat) (st : Status) (stack : Nat) : List Byte :=
  natLe 4 rpage ++ natLe 2 st.toNat ++ natLe 1 stack

/-- The Parcels that a page concerns: its owner, or those of SHAREMASK (R319, R320). -/
def PageEntry.parcels (e : PageEntry) : List Nat :=
  if e.cls = .wShared then (List.range 16).filter fun p => e.share.getLsbD p else [e.owner]

/-- A W-shared page becomes lost (R321). -/
def State.losePage (s : State) (rpage : Nat) (stack : Nat) : State :=
  let e := s.page rpage
  let s := { s with mem := { s.mem with lost := rpage :: s.mem.lost.erase rpage } }
  let s := s.cairnEvent 0x0021 0x0381#16 (natLe 4 rpage ++ natLe 1 2)
  let s := e.parcels.foldl (fun s p => s.notify p 0x0021 (weightDetail rpage 0x0381#16 stack)) s
  s.notify 16 0x0021 (weightDetail rpage 0x0381#16 stack)

/-- Poisons a W-shared page (R320, steps 1 to 4). `homeBad` says that the error lay in the home; without a mirror the page is lost
(R321). -/
def State.poisonShared (s : State) (rpage : Nat) : State :=
  let e := s.page rpage
  let k := stackNum e.loc e.lstack
  let homeBad := e.loc == 2
  let e' := { e with st := .poisoned, loc := 2, lstack := e.hstack, lframe := e.hframe }
  let s := s.setPage rpage e'
  let s := s.modStack k fun x => { x with status := setB x.status 2 }
  let s := s.cairnEvent 0x0021 0x0381#16 (natLe 4 rpage ++ natLe 1 0)
  -- 2: end the readers
  let rs := (tkeys s.reqs).filter fun r => (s.req r).live && e.parcels.contains (s.req r).parcel
    && (s.req r).extents.contains rpage
  let s := rs.foldl (fun s r => s.requestEnd r 0x0381#16) s
  -- 3: notify
  let s := e.parcels.foldl (fun s p => s.notify p 0x0020 (weightDetail rpage 0x0381#16 k)) s
  -- 4: verify, dropping a bad working copy
  let s := if homeBad then s else s.releaseFrame k e.lframe
  if !e.mirrored then s.losePage rpage k
  else
    let v := if homeBad then (rpage, e.mstack, e.mframe) else (rpage, e.hstack, e.hframe)
    { s with mem := { s.mem with verify := s.mem.verify ++ [v] } }

/-- An uncorrectable error at a Range address, by the class of its page (R319): the status for a reader. -/
def State.readError (s : State) (a : Nat) : State × Status :=
  let g := rpageOf a
  let e := s.page g
  let k := stackNum e.loc e.lstack
  let s := (s.modStack k fun x => { x with status := setB x.status 1 }).memCount k .ue
  match e.cls with
  | .d =>
    let sec := s.phys a / 64
    let s := { s with mem := { s.mem with poison := sec :: s.mem.poison.erase sec } }
    let s := s.modStack k fun x => { x with status := setB x.status 2 }
    (s.notify e.owner 0x0020 (weightDetail g 0x0380#16 k), 0x0380#16)
  | .wPrivate =>
    if e.loc ≠ 2 then
      let s := (s.setPage g { e with loc := 2, lstack := e.hstack, lframe := e.hframe }).releaseFrame k e.lframe
      (s.notify e.owner 0x0020 (weightDetail g 0x0381#16 k), 0x0381#16)
    else
      let s := s.setPage g { e with st := .poisoned }
      let s := s.modStack k fun x => { x with status := setB x.status 2 }
      (s.notify e.owner 0x0020 (weightDetail g 0x0382#16 k), 0x0382#16)
  | .wShared => (s.poisonShared g, 0x0381#16)

/-- An uncorrectable error at a Range address: the page as R319 and R320 state, and a move of it under way is abandoned and ends its task
with the status (R317). -/
def State.uncorrectable (s : State) (a : Nat) : State × Status :=
  let r := s.readError a
  (r.1.failMoves (fun m => m.rpage == rpageOf a) r.2 a, r.2)

/-! ### Reads by a Station -/

/-- The bytes that a Station reads: its own bytes still in its write-combining buffers first (R312). -/
def State.stnBytes (s : State) (n a len : Nat) : List Byte :=
  let wc := (s.stn n).wc
  (List.range len).map fun i =>
    match wc.find? (fun b => b.region == (a + i) / 1024) with
    | some b => ((b.bytes.find? fun c => c.1 == (a + i) % 1024).map (·.2)).getD (s.rbyte (a + i))
    | none => s.rbyte (a + i)

/-- An access that a stack refuses because of its heat is counted (R326, R331). -/
def State.countRefused (s : State) (x : Status × Nat) : State :=
  if x.1 = 0x0410#16 then let e := s.page (rpageOf x.2); s.memCount (stackNum e.loc e.lstack) .refused else s

/-- What the stack of a page answers to a command: out of service (R305) or refusing (R326). -/
def State.stackRefuses (s : State) (g : Nat) : Option Status :=
  let e := s.page g
  let k := stackNum e.loc e.lstack
  if !(s.stack k).status.getLsbD 4 then some 0x0383#16 else if (s.stack k).refuse then some 0x0410#16 else none

/-- A corrected error of a stack: counted and shown (R318, R330, R331). -/
def State.corrected (s : State) (k : Nat) : State := (s.modStack k fun x => { x with status := setB x.status 0 }).memCount k .ce

/-- A read of the Range by the task of a Station: the bytes, or the status and address of the check or error that ends
it (R296, R305, R318, R319, R326). -/
def State.stnRead (s : State) (n : Nat) (p a len : Nat) (env : Env) : State × Except (Status × Nat) (List Byte) :=
  match s.rangeCheck false p a len with
  | some x => (s, .error x)
  | none =>
    match (pagesOf a len).findSome? fun g => (s.stackCheck (facetOf n) g).map fun st => (st, max a (g * 2 ^ 21)) with
    | some x => (s.countRefused x, .error x)
    | none =>
      match s.poisonAt a len with
      | some b => (s, .error (0x0380#16, max a b))
      | none =>
        let k := let e := s.page (rpageOf a); stackNum e.loc e.lstack
        let s := ((s.touchPages n a len).perturbHit 2 n).perturbHit 3 k
        let pt := s.perturb 3 k false a len
        let s := if env.ce && !env.ue then pt.1.corrected k else pt.1
        if env.ue then let r := s.uncorrectable a; (r.1, .error (r.2, a))
        else match pt.2 with
          | some true => let r := s.uncorrectable a; (r.1.forcedSince s.cairn.rseq, .error (r.2, a))
          | some false => (s.corrected k, .ok (s.stnBytes n a len))
          | none => (s, .ok (s.stnBytes n a len))

/-! ### Posted writes (R311, R384) -/

/-- Writes bytes of one region to memory; a sector that is written whole is no longer poisoned (R319). -/
def State.writeRegion (s : State) (region : Nat) (bytes : Tab Byte) : State :=
  let s := let e := s.page (region / 2048); s.perturbHit 3 (stackNum e.loc e.lstack)
  let s1 := { s with mem := bytes.foldl (fun m c => m.put (s.phys (region * 1024 + c.1)) c.2) s.mem }
  let whole := (List.range 16).filter fun k => (List.range 64).all fun i => (tkeys bytes).contains (64 * k + i)
  whole.foldl (fun s k =>
    { s with mem := { s.mem with poison := s.mem.poison.erase (s.phys (region * 1024 + 64 * k) / 64) } }) s1

/-- The number under which a task waits for the acknowledgement of a frame of TAG `tag`; those of atomic adds within the
module stay below it. -/
def frameAck (tag : Nat) : Nat := 2 ^ 32 + tag

/-- Sends a Traverse frame that awaits an ACK (R376); a frame of a task holds up the task's completion. -/
def State.sendFrame (s : State) (kind cls dest dparcel sparcel addr : Nat) (pay : List Byte) (stn req : Option Nat)
    : State :=
  let tag := s.trvTag
  let s := s.trvOut kind cls dest dparcel sparcel tag addr pay
  let s := match stn with
    | some n => s.modCore n fun c => { c with task := { c.task with acksOut := c.task.acksOut ++ [frameAck tag] } }
    | none => s
  { s with trvTag := (tag + 1) % 2 ^ 32,
           sent := s.sent ++ [{ tag := tag, since := s.aon, stn := stn, req := req, parcel := sparcel, dest := dest,
                                dparcel := dparcel }] }

/-- The first 64-byte sector of a region that some of the bytes fill in part: it is written by read-modify-write (R311). -/
def partSector (bytes : Tab Byte) : Option Nat :=
  (List.range 16).find? fun k =>
    let n := (tkeys bytes).countP fun o => o / 64 == k
    decide (0 < n ∧ n < 64)

/-- What the read-modify-write of a partly valid sector meets: a corrected error is counted; an uncorrectable one is handled as that of a
read of the page, the write completing (R311, R319). -/
def State.rmwMeets (s : State) (region : Nat) (bytes : Tab Byte) (rmw : Sram) : State :=
  match partSector bytes, rmw with
  | some k, .bad => (s.uncorrectable (region * 1024 + 64 * k)).1
  | some _, .corrected => let e := s.page (region / 2048); s.corrected (stackNum e.loc e.lstack)
  | _, _ => s

/-- Flushes one write-combining buffer of a Station (R311): to memory, or for a window page as one WRITE frame (R384).
The status 0x01A3 answers a window flush that holds a partly valid sector. -/
def State.flushBuf (s : State) (n : Nat) (b : WcBuf) (rmw : Sram) : State × Option (Status × Nat) :=
  let a := b.region * 1024
  if isWindow a then
    let p := (s.core n).task.desc.parcel
    let lo := ((tkeys b.bytes).headD 0)
    let len := b.bytes.length
    if lo % 64 ≠ 0 ∨ len % 64 ≠ 0 ∨ (List.range len).any (fun i => !(tkeys b.bytes).contains (lo + i)) then
      (s, some (0x01A3#16, a + lo))
    else
      match (s.parcel p).windowAt (rpageOf a) with
      | some w =>
        (s.sendFrame 0x01 1 w.module w.parcel p (w.rbase + (a + lo - (w.base * 2 ^ 21))) (b.bytes.map (·.2)) (some n) none,
         none)
      | none => (s, none)
  else ((s.rmwMeets b.region b.bytes rmw).writeRegion b.region b.bytes, none)

/-- Posts a byte into the buffers of a Station, the buffer written last standing last. A buffer that is full, or the least
recently written when a seventeenth is needed, is flushed (R311). The status is that of a window flush that fails. -/
def State.postByte (s : State) (n a : Nat) (v : Byte) (rmw : Sram) : State × Option (Status × Nat) :=
  let wc := (s.stn n).wc
  let r := a / 1024
  let old := (wc.find? fun b => b.region == r).getD { region := r, bytes := [] }
  let buf : WcBuf := { region := r, bytes := fput old.bytes (a % 1024) v }
  let rest := wc.filter fun b => b.region != r
  if buf.bytes.length = 1024 then (s.modStn n fun x => { x with wc := rest }).flushBuf n buf rmw
  else if 16 ≤ rest.length then
    match rest with
    | o :: rest' => (s.modStn n fun x => { x with wc := rest' ++ [buf] }).flushBuf n o rmw
    | [] => (s, none)
  else (s.modStn n fun x => { x with wc := rest ++ [buf] }, none)

/-- Posts bytes from `a` on; `rmw` is what the read-modify-write of a buffer that they flush meets. -/
def State.post (s : State) (n a : Nat) (bs : List Byte) (rmw : Sram) : State × Option (Status × Nat) :=
  ((List.range bs.length).zip bs).foldl (fun r p => let r' := r.1.postByte n (a + p.1) p.2 rmw; (r'.1, r.2.orElse fun _ => r'.2))
    ((s.touchPages n a bs.length).perturbHit 2 n, none)

/-- Flushes every buffer of a Station (STEP, END; R311): the status of a window flush that fails. -/
def State.flushAll (s : State) (n : Nat) (rmw : Sram) : State × Option (Status × Nat) :=
  let wc := (s.stn n).wc
  let hit := wc.find? fun b => (partSector b.bytes).isSome
  wc.foldl (fun r b => let r' := r.1.flushBuf n b (if hit = some b then rmw else .good); (r'.1, r.2.orElse fun _ => r'.2))
    (s.modStn n fun x => { x with wc := [] }, none)

end Sys2Proof.Machine
end

