-- ==== Sys2Proof/Machine/Operands.lean ====
section
/-!
DEFINITION. The operand forms of a Station's operations: scratchpad addresses under interleaving (R220, R221, R550), reads
and writes of the scratchpad with their check bits (R253 to R258) and bank accesses (R222, R225), handles and streams
(R240 to R242, R268), packed blocks by position (R42), registers (R217), and generators named by the task (R66, R271).
-/

namespace Sys2Proof.Machine

/-! ### What issuing an operation brings about -/

/-- What issuing an operation brings about: the state after it, a fault that stops the task, a wait that holds or
freezes the bundle, or a check error that starts a re-run (R256), with the failing word. -/
inductive Issue where
  | ok (s : State)
  | stop (s : State) (f : Flt)
  | wait (why : Wait) (need : Nat)
  | rerun (s : State) (word : Nat)
  deriving DecidableEq, Repr

/-- Goes on with the state of an operation that issued. -/
def Issue.bind (r : Issue) (f : State → Issue) : Issue :=
  match r with
  | .ok s => f s
  | x => x

/-- An outcome with its state changed. -/
def Issue.mapState (r : Issue) (f : State → State) : Issue :=
  match r with
  | .ok s => .ok (f s)
  | .stop s e => .stop (f s) e
  | .rerun s w => .rerun (f s) w
  | .wait why need => .wait why need

/-- A fault when a condition holds. -/
def failIf (c : Bool) (s : State) (f : Flt) (k : Unit → Issue) : Issue := if c then .stop s f else k ()

/-! ### The scratchpad (R220, R221) -/

def scratchSize : Nat := 25165824
def windowBase : Nat := scratchSize - 65536

/-- Bit 63 marks a scratchpad address in a completion record (R288). -/
def scrAddr (a : Nat) : Nat := 2 ^ 63 + a % 2 ^ 24

/-- Interleave code of a bank (R226). -/
def Image.code (im : Image) (b : Nat) : Nat := im.ilv.getD b 0

/-- The bank and the line of a scratchpad byte address (R220). -/
def bankLine (im : Image) (a : Nat) : Nat × Nat :=
  let nb := a / 786432
  let m := 2 ^ im.code nb
  let b0 := m * (nb / m)
  let o := a - b0 * 786432
  (b0 + o / 128 % m, o / 128 / m)

/-- The place of a scratchpad byte in the banks. -/
def scrKey (im : Image) (a : Nat) : Nat :=
  let p := bankLine im a
  (p.1 * 6144 + p.2) * 128 + a % 128

/-- The lines that `len` bytes from `a` touch, by the address of their first byte. -/
def lineStarts (a len : Nat) : List Nat :=
  if len = 0 then [] else (List.range ((a + len - 1) / 128 - a / 128 + 1)).map fun i => (a / 128 + i) * 128

/-- The lines that `len` bytes from `a` touch, as bank and line. -/
def linesOf (im : Image) (a len : Nat) : List (Nat × Nat) := (lineStarts a len).map (bankLine im)

/-- Whether an access touches banks 16 to 31 and so has the far latency (R221). -/
def isFar (im : Image) (a len : Nat) : Bool := (linesOf im a len).any fun p => decide (16 ≤ p.1)

/-- Whether an access lies wholly in the scratchpad (R550). -/
def inScratch (a len : Nat) : Bool := decide (a + len ≤ scratchSize)

def Station.sbyte (x : Station) (a : Nat) : Byte := tget 0 x.scratch (scrKey x.core.task.image a)
def Station.sbytes (x : Station) (a len : Nat) : List Byte := (List.range len).map fun i => x.sbyte (a + i)

/-- The place of the 64-bit word of a scratchpad byte in the banks. -/
def wordKey (im : Image) (a : Nat) : Nat := scrKey im a / 8

/-- The 64-bit words that an access of `len` bytes from `a` touches, by their addresses. -/
def wordsOf (a len : Nat) : List Nat := if len = 0 then [] else (List.range ((a + len - 1) / 8 - a / 8 + 1)).map fun i => (a / 8 + i) * 8

/-- The stored errors in the words of an access: the first word with one, and the most wrong bits of a word. -/
def Station.flipsAt (x : Station) (a len : Nat) : Option (Nat × Nat) :=
  if x.flips.isEmpty then none
  else
    let ws := (wordsOf a len).filter fun w => tget 0 x.flips (wordKey x.core.task.image w) != 0
    ws.head?.map fun w => (w, ws.foldl (fun m v => max m (tget 0 x.flips (wordKey x.core.task.image v))) 0)

/-- Writes bytes to the scratchpad, with new check bits for the words they lie in (R253). -/
def Station.sput (x : Station) (a : Nat) (bs : List Byte) : Station :=
  let put (t : Tab Byte) (p : Nat × Byte) : Tab Byte := mset 0 t (scrKey x.core.task.image (a + p.1)) p.2
  { x with scratch := ((List.range bs.length).zip bs).foldl put x.scratch,
           flips := if x.flips.isEmpty then [] else
             (wordsOf a bs.length).foldl (fun t w => mset 0 t (wordKey x.core.task.image w) 0) x.flips }

/-- Records that a port touches the lines of an access in the tick `t` (R222). -/
def State.touchAt (s : State) (n port t a len : Nat) : State :=
  (s.perturbHit 1 (16 * n + port)).modCore n fun c => { c with accs := c.accs ++ (lineStarts a len).map fun b =>
    { tick := t, port := port, bank := (bankLine c.task.image b).1, line := (bankLine c.task.image b).2, addr := max a b } }

/-- The tick by which a port's accesses are told apart: array ticks for the input port, program ticks for the others. -/
def StCore.portTick (c : StCore) (port : Nat) : Nat := if port = 0 then c.atick else c.tick

/-- Records an access in the present tick. -/
def State.touch (s : State) (n port a len : Nat) : State := s.touchAt n port ((s.core n).portTick port) a len

/-- A write that takes place at the end of the present tick (R222). -/
def State.swrite (s : State) (n port a : Nat) (bs : List Byte) : State :=
  (s.touch n port a bs.length).modCore n fun c => { c with spw := c.spw ++ [(a, bs)] }

/-- The 64-bit words that a re-run or a completion record names by scratchpad address. -/
def wordOf (a : Nat) : Nat := a / 8 * 8

/-- What a scratchpad read of `len` bytes by a port delivers under its check bits (R253, R257, R258). `env.chk` is the number of bit
errors in a word of it, of the first when they are stored; stored errors stand until their word is written; a perturbation of the port
may force one or two (R527). -/
def State.checked (s : State) (n port a len : Nat) (env : Env) (bs : List Byte) : State × Except Issue (List Byte) :=
  let pt := s.perturb 1 (16 * n + port) true a len
  let s := if env.stored && decide (0 < env.chk) then
      pt.1.modStn n fun x => { x with flips := mset 0 x.flips (wordKey x.core.task.image (wordOf a)) env.chk }
    else pt.1
  let kept := (s.stn n).flipsAt a len
  let word := (kept.map (·.1)).getD (wordOf a)
  let chk := match pt.2 with
    | some u => if env.chk = 0 then (if u then 2 else 1) else env.chk
    | none => env.chk
  let chk := max chk ((kept.map (·.2)).getD 0)
  if chk = 0 then (s, .ok bs)
  else
    let c := s.core n
    let wrong (s : State) : List Byte := natLe (min 8 bs.length) (Config.secdedWord s.free).toNat ++ bs.drop 8
    let s' := { s with free := s.free + 1 }
    if c.task.detect then
      if chk ≤ 3 ∨ Config.detectMisses s.free = false then
        let s' := s'.modCore n fun c => c.count .chkDetected
        (s', .error (.rerun s' word))
      else (s', .ok (wrong s))
    else if chk = 1 then (s.modCore n fun c => c.count .chkCorrected, .ok bs)
    else if chk = 2 ∨ Config.secdedMiscorrects s.free = false then
      let s' := s'.modCore n fun c => c.count .chkDetected
      (s', .error (.stop s' { st := 0x0362#16, addr := scrAddr word }))
    else (s'.modCore n fun c => c.count .chkCorrected, .ok (wrong s))

/-- A read of the scratchpad by a port in the present tick. -/
def State.sread (s : State) (n port a len : Nat) (env : Env) : State × Except Issue (List Byte) :=
  let s := s.touch n port a len
  s.checked n port a len env ((s.stn n).sbytes a len)

/-- A read of a byte range that lies in the scratchpad or in the Range, by the task of a Station. -/
def State.fetch (s : State) (n port : Nat) (scratch : Bool) (a len : Nat) (env : Env) (unit : Nat)
    : State × Except Issue (List Byte) :=
  if scratch then s.sread n port a len env
  else
    let r := s.stnRead n (s.core n).task.desc.parcel a len env
    match r.2 with
    | .ok bs => (r.1, .ok bs)
    | .error x => (r.1, .error (.stop r.1 { st := x.1, addr := x.2, unit := unit }))

/-! ### Streams and handles (R240, R241, R268) -/

def StCore.stream (c : StCore) (k : Nat) : BitVec 64 := tget 0 c.streams k
def StCore.setStream (c : StCore) (k : Nat) (v : BitVec 64) : StCore := { c with streams := fput c.streams k v }

def srPos (r : BitVec 64) : Nat := bits r.toNat 63 32
def srKind (r : BitVec 64) : Nat := bits r.toNat 31 30
def srHidx (r : BitVec 64) : Nat := bits r.toNat 28 25
def srGaddr (r : BitVec 64) : Nat := bits r.toNat 19 0
def srScale (r : BitVec 64) : Lns := BitVec.ofNat 16 (bits r.toNat 15 0)

/-- A stream register with its position moved on by `k`, modulo 2^32. -/
def srAdvance (r : BitVec 64) (k : Nat) : BitVec 64 :=
  BitVec.ofNat 64 (((srPos r + k) % 2 ^ 32) <<< 32 + r.toNat % 2 ^ 32)

/-- A stream moves on by `by_`. -/
def StCore.moveStream (c : StCore) (k by_ : Nat) : StCore := c.setStream k (srAdvance (c.stream k) by_)
/-- An operation of the present tick moves a stream on: a result that reaches the stream register in this tick (R233). -/
def StCore.advance (c : StCore) (k by_ : Nat) : StCore := { c.moveStream k by_ with moved := c.moved ++ [k] }

/-- The handle of a KIND 1 stream. -/
def StCore.handleOf (c : StCore) (r : BitVec 64) : Option Handle :=
  if srKind r = 1 then c.task.handles[srHidx r]? else none

/-- Whether an input or output stream is bound to a handle of the descriptor (R241). -/
def StCore.bound (c : StCore) (r : BitVec 64) : Bool := (c.handleOf r).isSome

/-- The size of a slot of a handle's tensor (R42, R167, R268). -/
def Handle.unit (h : Handle) : Nat := if h.hkind = 0 then 64 * h.pitch + 8 else if h.hkind = 1 then 1544 else 128

/-- The address of block `b` of a handle's tensor (R42, R167). -/
def Handle.blockAt (h : Handle) (b : Nat) : Nat := h.base + b * h.unit

/-- The block at position `b` of a packed-block handle: its header is checked under R41 (or under checks 1 and 2 alone),
then its payload is read. Answers the header, the payload and the elements' bytes' address. -/
def State.readBlock (s : State) (n port : Nat) (h : Handle) (b : Nat) (env : Env) (unit : Nat)
    : State × Except Issue (Hdr × List Byte) :=
  let a := h.blockAt b
  let fa := if h.scratch then scrAddr a else a
  if h.scratch && !inScratch a 8 then (s, .error (.stop s { st := 0x0762#16, addr := fa, unit := 4 }))
  else
    -- the header's bytes are read for their check; what the access meets counts with the whole burst
    let r : State × Except Issue (List Byte) :=
      if h.scratch then (s, .ok ((s.stn n).sbytes a 8)) else s.fetch n port false a 8 { env with ce := false } unit
    match r.2 with
    | .error e => (r.1, .error e)
    | .ok hb =>
      let hd := hdrOf hb
      match hdrCheck h.pitch hd with
      | some st => (r.1, .error (.stop r.1 { st := st, addr := fa, unit := unit }))
      | none =>
        let len := burst hd.w
        if h.scratch && !inScratch a len then (s, .error (.stop s { st := 0x0762#16, addr := fa, unit := 4 }))
        else
          -- the whole burst is one access (R37)
          let r := s.fetch n port h.scratch a len env unit
          match r.2 with
          | .error e => (r.1, .error e)
          | .ok bs => (r.1, .ok (hd, bs.drop 8))

/-! ### Registers (R217, R218, R233) -/

def StCore.sreg (c : StCore) (k : Nat) : BitVec 32 := tget 0 c.scalars k
def vecZero : List Lns := List.replicate 256 lnsZero
def StCore.vreg (c : StCore) (e k : Nat) : List Lns := tget vecZero c.vregs (e * 32 + k)
def StCore.vscl (c : StCore) (e : Nat) : Lns := tget 0x0000#16 c.vscale e

/-- A result of latency `lat` that reaches a register at the end of tick t + lat − 1 (R218). -/
def StCore.result (c : StCore) (lat : Nat) (d : Dest) (x : BitVec 64) (v : List Lns := []) : StCore :=
  { c with pend := c.pend ++ [{ due := c.tick + lat - 1, dest := d, bits := x, vec := v }] }

/-- A result reaches its register. -/
def StCore.land (c : StCore) (p : Pend) : StCore :=
  match p.dest with
  | .scalar k => { c with scalars := fput c.scalars k (p.bits.truncate 32) }
  | .vector e k => { c with vregs := fput c.vregs (e * 32 + k) p.vec }
  | .vscale e => { c with vscale := fput c.vscale e (p.bits.truncate 16) }
  | .stream k => { c.setStream k p.bits with gathers := if 4 ≤ k then tdel c.gathers (k - 4) else c.gathers }

/-- Cycles frozen by the issue duty (R249, R251). -/
def StCore.countDuty (c : StCore) (k : Nat) : StCore :=
  { c.count .frzDuty k with task := { c.task with frzDuty := satAdd 0xFFFFFFFF c.task.frzDuty k } }

/-- Slots (R142). -/
def StCore.slot (c : StCore) (k : Nat) : Slot := tget .clear c.slots k
def StCore.setSlot (c : StCore) (k : Nat) (x : Slot) : StCore := { c with slots := fput c.slots k x }

/-! ### Generators (R59, R66, R271) -/

def StCore.gen (c : StCore) (k : Nat) : BitVec 64 := tget 1 c.gens k

/-- One step of a generator: its output. -/
def StCore.draw (c : StCore) (k : Nat) : StCore × BitVec 64 :=
  let x := genStep (c.gen k)
  ({ c with gens := fput c.gens k x }, x)

/-- The role under which a task names a generator: the roles of its entries for it (R271). -/
def Task.roles (t : Task) (k : Nat) : List Nat := (t.gens.filter fun g => g.gen == k && g.role != 0).map (·.role)

/-- The first of `ng` generators from `gb` on that the task does not name with a role of `ok` (R66, R158, R246). -/
def Task.unnamed (t : Task) (gb ng : Nat) (ok : List Nat) : Option Nat :=
  ((List.range ng).map (gb + ·)).find? fun k => !(t.roles k).any fun r => ok.contains r

/-- The dither words of `count` elements drawn from `ng` generators: in each tick generator gb + g serves elements
[4g, 4g + 3] of the tick's group of 4·ng elements (R57, R158). -/
def drawDither (gb ng : Nat) : Nat → StCore → StCore × List Nat
  | 0, c => (c, [])
  | k + 1, c =>
    let r := (List.range ng).foldl (fun (a : StCore × List Nat) g =>
      let d := a.1.draw (gb + g)
      (d.1, a.2 ++ ditherWords d.2)) (c, [])
    let r' := drawDither gb ng k r.1
    (r'.1, r.2 ++ r'.2)

end Sys2Proof.Machine
end

