-- ==== Sys2Proof/Machine/Accum.lean ====
section
/-!
DEFINITION. Accumulator slots (R142 to R150): opening, closing, start values, the alignment and addition of a product and
its overflow check (R145, R146), the metadata word (R164), and the sub-block sums of the array (R77, R78, R89, R121).
-/

namespace Sys2Proof.Machine

/-! ### Sets -/

def Slot.active (x : Slot) : Tab Int := if x.act then x.acc1 else x.acc0
def Slot.shadow (x : Slot) : Tab Int := if x.act then x.acc0 else x.acc1
def Slot.activeD (x : Slot) : Int := if x.act then x.datum1 else x.datum0
def Slot.shadowD (x : Slot) : Int := if x.act then x.datum0 else x.datum1
def Slot.shadowScale (x : Slot) : Lns := if x.act then x.scale0 else x.scale1

def Slot.setActive (x : Slot) (t : Tab Int) (d : Int) : Slot :=
  if x.act then { x with acc1 := t, datum1 := d } else { x with acc0 := t, datum0 := d }
def Slot.setShadow (x : Slot) (t : Tab Int) (d : Int) : Slot :=
  if x.act then { x with acc0 := t, datum0 := d } else { x with acc1 := t, datum1 := d }
def Slot.setActiveScale (x : Slot) (v : Lns) : Slot := if x.act then { x with scale1 := v } else { x with scale0 := v }
def Slot.setShadowScale (x : Slot) (v : Lns) : Slot := if x.act then { x with scale0 := v } else { x with scale1 := v }

/-- Output `o` (0 A, 1 B) of the shadow set, columns 0 to 511. -/
def Slot.shadowOut (x : Slot) (o : Nat) : List Int := (List.range 512).map fun c => tget 0 x.shadow (2 * c + o)

/-- Limits of an accumulator (R142). -/
def accMin : Int := -(2 ^ 39)
def accMax : Int := 2 ^ 39 - 1
def inAcc (v : Int) : Bool := decide (accMin ≤ v ∧ v ≤ accMax)

/-- The metadata word of a slot (R164). -/
def Slot.meta (x : Slot) : BitVec 64 :=
  BitVec.ofNat 64 (x.scale1.toNat <<< 44 + x.scale0.toNat <<< 28 + b2n x.isOpen <<< 27 + (x.start % 4) <<< 25
    + b2n x.act <<< 24 + intBits 8 x.di <<< 16 + intBits 8 x.datum1 <<< 8 + intBits 8 x.datum0)

/-- A slot whose metadata is put back from a word; its accumulators stand (R164, R256). -/
def Slot.setMeta (x : Slot) (w : BitVec 64) : Slot :=
  let v := w.toNat
  { x with scale1 := BitVec.ofNat 16 (bits v 59 44), scale0 := BitVec.ofNat 16 (bits v 43 28), isOpen := bits v 27 27 == 1,
           start := bits v 26 25, act := bits v 24 24 == 1, di := sext 8 (bits v 23 16), datum1 := sext 8 (bits v 15 8),
           datum0 := sext 8 (bits v 7 0) }

/-! ### The save image (R163, R164) -/

/-- Bytes put at an offset of an image, in canonical form with default 0. -/
def putAt (t : Tab Byte) (o : Nat) (bs : List Byte) : Tab Byte :=
  ((List.range bs.length).zip bs).foldl (fun t p => mset 0 t (o + p.1) p.2) t

/-- The save image of slots, 655,872 B: their metadata and their accumulators of 40 bits. -/
def saveImage (slots : Tab Slot) : Tab Byte :=
  let acc (s k : Nat) (t : Tab Byte) (a : Tab Int) : Tab Byte :=
    a.foldl (fun t x => putAt t (512 + 10240 * s + 5120 * k + 5 * x.1) (natLe 5 (intBits 40 x.2))) t
  slots.foldl (fun t x => acc x.1 1 (acc x.1 0 (putAt t (8 * x.1) (natLe 8 x.2.meta.toNat)) x.2.acc0) x.2.acc1) []

/-- `n` bytes of an image. -/
def imageBytes (t : Tab Byte) (o n : Nat) : List Byte := (List.range n).map fun i => tget 0 t (o + i)

/-- The slots that a save image holds. -/
def slotsOf (t : Tab Byte) : Tab Slot :=
  let acc (s k : Nat) : Tab Int :=
    (((tkeys t).filter fun o => (o - 512) / 5120 == 2 * s + k && decide (512 ≤ o)).map fun o => (o - 512) % 5120 / 5).eraseDups.foldl
      (fun a i => mset 0 a i (sext 40 (le (imageBytes t (512 + 10240 * s + 5120 * k + 5 * i) 5) 0 5))) []
  ((tkeys t).map fun o => if o < 512 then o / 8 else (o - 512) / 10240).eraseDups.foldl
    (fun r s => fput r s { Slot.clear.setMeta (BitVec.ofNat 64 (le (imageBytes t (8 * s) 8) 0 8)) with acc0 := acc s 0, acc1 := acc s 1 }) []

/-! ### Opening and closing (R147, R150) -/

/-- How a tile opens a slot. -/
inductive Opener where
  | amac
  | brun (add pair : Bool)
  deriving DecidableEq, Repr

/-- Raises DEPTHj of ACC_REPLAY_DEPTH, three 21-bit fields that saturate (R176). -/
def depthAdd (w : BitVec 64) (j : Nat) : BitVec 64 :=
  if j = 0 ∨ 3 < j then w
  else
    let v := bits w.toNat (21 * j - 1) (21 * (j - 1))
    if v = 2 ^ 21 - 1 then w else w + BitVec.ofNat 64 (2 ^ (21 * (j - 1)))

/-- The accumulators of output B alone. -/
def onlyB (t : Tab Int) : Tab Int := t.filter fun p => p.1 % 2 == 1
/-- The accumulators of output A alone. -/
def onlyA (t : Tab Int) : Tab Int := t.filter fun p => p.1 % 2 == 0

/-- The start values of the tile that fills a slot, re-expressed at Datum `d`, as the shadow set now gives them (R147). -/
def Slot.startAt (x : Slot) (d : Int) : Tab Int :=
  let t := (x.shadow.map fun p => (p.1, shiftFloor p.2 (x.shadowD - d))).filter fun p => p.2 != 0
  if x.src = 0 then [] else if x.src = 1 then t else onlyB t

/-- Outputs A of one set and outputs B of another, by ascending accumulator. -/
def mergeAB (a b : Tab Int) : Tab Int := (onlyB b).foldl (fun t p => mset 0 t p.1 p.2) (onlyA a)

/-- The accumulators without a contribution take their start values (R147, R150). -/
def Slot.settleStart (x : Slot) : Slot :=
  if !x.got then { (x.setActive (x.startAt x.activeD) x.activeD) with begin := x.startAt x.beginD }
  else if !x.both then
    { (x.setActive (mergeAB x.active (x.startAt x.activeD)) x.activeD) with begin := mergeAB x.begin (x.startAt x.beginD) }
  else x

/-- A slot at its tile's first contribution, which takes the start values (R147). -/
def Slot.firstProduct (x : Slot) : Slot := if x.got then x else { x.settleStart with got := true }

/-- Closes a slot: accumulators without a contribution take their start values and the sets exchange roles (R150). Closing a closed
slot has no effect. -/
def StCore.closeSlot (c : StCore) (k : Nat) : StCore :=
  let x := (c.slot k).settleStart
  if !(c.slot k).isOpen then c
  else
    let c := c.setSlot k { x with isOpen := false, act := !x.act, named := false }
    { c with ctr := fput c.ctr SC.accDepth.num (depthAdd (ctrGet c.ctr SC.accDepth.num) x.replays) }

/-- A slot that keeps its contents from before the tile: the tile's active set is given up, the sets keep their roles
(R68, R130, R160). -/
def StCore.dropSlot (c : StCore) (k : Nat) : StCore :=
  let x := c.slot k
  if !x.isOpen then c
  else c.setSlot k { (x.setActive x.begin x.beginD) with isOpen := false, start := x.preStart, named := false }

/-- Opens a slot for a tile (R147), closing it first when it is open from an earlier one (R150). `scale` is what R53 or
R122 names for the tile (R167), `both` whether the tile's products reach both outputs. -/
def StCore.openSlot (c : StCore) (k tile : Nat) (by_ : Opener) (both : Bool) (scale : Lns) : StCore :=
  let c := c.closeSlot k
  let x := c.slot k
  -- where the start values come from, the Datum of the active set, START afterwards
  let v : Nat × Int × Nat := match by_ with
    | .amac => if x.start = 0 then (1, x.shadowD, 0) else (0, x.di, if x.start = 1 then 1 else 0)
    | .brun true _ => (1, x.shadowD, x.start)
    | .brun false true => (0, x.di, x.start)
    | .brun false false => (2, x.shadowD, x.start)
  let y := { x with src := v.1, both := both, got := false }
  let t := y.startAt v.2.1
  (c.setSlot k { ((y.setActive t v.2.1).setActiveScale scale) with
    isOpen := true, tile := tile, begin := t, beginD := v.2.1, preStart := x.start, start := v.2.2,
    replays := 0 }).count .accTiles

/-- A product of a tile names a slot: the slot opens when the tile has not named it before (R147, R149). The scale product is formed
at the opening, with the events of R47 (R53, R70). -/
def StCore.nameSlot (c : StCore) (k tile : Nat) (by_ : Opener) (both : Bool) (scale : Lns × FmtEv) (u : Nat) : StCore :=
  let x := c.slot k
  let c := if x.isOpen && x.tile == tile then c else (c.openSlot k tile by_ both scale.1).fmt scale.2
  c.setSlot k { c.slot k with last := u, named := true }

/-! ### Sub-block sums (R77, R78, R89) -/

/-- The sum of sub-block `j` of a column for one merge tree. -/
def subSum (trits : List Int) (owners : List Bool) (o : Bool) (q : List Int) (j : Nat) : Int :=
  let sl {α : Type} (l : List α) := (l.drop (64 * j)).take 64
  (((sl trits).zip (sl owners)).zip (sl q)).foldl (fun a p => if p.1.2 == o then a + p.1.1 * p.2 else a) 0

/-- What a MAC adds: for each output of each column, eight pairs of sub-block sum and exponent ej + ew. Sums of 0 add
nothing and are left out with their column. -/
def macTerms (pl : Plane) (q es : List Int) : List (Nat × List (Int × Int)) :=
  ((List.range pl.cols.length).zip pl.cols).flatMap fun p =>
    ([false, true].filter fun o => pl.merged || !o).filterMap fun o =>
      let ts := (List.range 8).map fun j => (subSum p.2.trits p.2.owners o q j, es.getD j 0 + p.2.exps.getD 0 0)
      if ts.all (·.1 == 0) then none else some (2 * p.1 + b2n o, ts)

/-- What one vector adds in pass `k` of a bit-serial tile (R109, R114, R115, R121). -/
def passTerms (bk : Bank) (k : Nat) (q es : List Int) : List (Nat × List (Int × Int)) :=
  let trits (b : BitBlock) : List Int := b.qs.map (passTrit b.u b.w' k)
  let term (ts : List Int) (ex : List Int) (j0 len : Nat) : List (Int × Int) :=
    (List.range len).map fun j =>
      let r := 64 * (j0 + j)
      (sumInt ((((ts.drop (64 * j)).take 64).zip ((q.drop r).take 64)).map fun p => p.1 * p.2),
       es.getD (j0 + j) 0 + ex.getD j 0 + k)
  ((List.range bk.blocks.length).zip bk.blocks).filterMap fun p =>
    let isB := bk.pair && decide (bk.n ≤ p.1)
    let ts := if bk.pair then term (trits p.2) p.2.es (if isB then 4 else 0) 4 else term (trits p.2) p.2.es 0 8
    if ts.all (·.1 == 0) then none else some (if isB then 2 * (p.1 - bk.n) + 1 else 2 * p.1, ts)

/-! ### Addition (R145, R146) -/

/-- One aligned sub-block sum, and whether rounding changed it. -/
def alignSum (d : Int) (t : Int × Int) : Int × Bool :=
  let a := t.2 - d
  (shiftEven t.1 a, decide (a < 0) && decide (t.1 % ((2 ^ (-a).toNat : Nat) : Int) ≠ 0))

/-- Adds a product into the active set of a slot: the slot, the contributions that rounding changed, and whether the slot
overflows. On overflow the accumulators stand. The tile's first product takes the start values. -/
def Slot.addProduct (x : Slot) (terms : List (Nat × List (Int × Int))) : Slot × Nat × Bool :=
  let x := x.firstProduct
  let d := x.activeD
  let rows := terms.map fun t =>
    let al := t.2.map (alignSum d)
    (t.1, al.map (·.1), (al.filter (·.2)).length)
  let news := rows.map fun r => (r.1, tget 0 x.active r.1 + sumInt r.2.1)
  let inexact := (rows.map (·.2.2)).sum
  let bad := rows.any (fun r => !r.2.1.all inAcc || !inAcc (sumInt r.2.1)) || news.any fun p => !inAcc p.2
  if bad then (x, inexact, true)
  else (x.setActive (news.foldl (fun t p => mset 0 t p.1 p.2) x.active) d, inexact, false)

/-- Start values re-expressed at a Datum raised by `k` bits, rounding toward −∞ (R159). -/
def reexpress (t : Tab Int) (k : Nat) : Tab Int :=
  (t.map fun p => (p.1, p.2 / ((2 ^ k : Nat) : Int))).filter fun p => p.2 != 0

/-- The slot as phase 2 of its `j`-th replay leaves it (R93, R159). -/
def Slot.rewind (x : Slot) (j : Nat) : Slot := x.setActive (reexpress x.begin (4 * j)) (x.beginD + 4 * j)

end Sys2Proof.Machine
end

