-- ==== Sys2Proof/Machine/Loader.lean ====
section
/-!
DEFINITION. The loader and the strip-gather unit: the strips and blocks of a load (R82, R84, R116, R194 to R197), their
checks (R85, R98, R117), and what a full plane or bank holds (R75, R108, R110, R114, R115).
-/

namespace Sys2Proof.Machine

/-- Whether the loader goes on during a wait: the bundle waits for it. -/
def Wait.loaderGoes (w : Wait) : Bool := w == .loader || w == .plane || w == .step

/-- Bytes of a strip of a load (R82). -/
def LoadKind.size : LoadKind → Nat
  | .dense => 104
  | .merged => 168
  | .bits => 0

/-- Bytes that a block of a BLOAD counts for in the load's time: the pitch slot, or its half in pair mode (R116). -/
def bloadSize (pitch : Nat) (pair : Bool) : Nat := if pair then 32 * pitch + 8 else 64 * pitch + 8

/-- Ticks of a load of strips, and of a BLOAD (R82, R116). -/
def loadTicks (k : LoadKind) (n : Nat) : Nat := ceilDiv (n * k.size) 1024
def bloadTicks (pitch n : Nat) (pair : Bool) : Nat := ceilDiv ((if pair then 2 * n else n) * bloadSize pitch pair) 1024

/-! ### Gather lists (R194 to R197) -/

/-- The gather descriptor that 32 bytes hold, or none when it breaks R197. -/
def gatherOf (bs : List Byte) : Option Gather :=
  let mode := le bs 0 1
  let wb := le bs 8 8
  let lista := le bs 4 4
  let scr := bits wb 63 63 == 1
  let base := bits wb 43 0
  if 3 ≤ mode ∨ ¬ zeros bs 18 14 ∨ bits wb 62 44 ≠ 0 ∨ lista % 4 ≠ 0 ∨ scratchSize ≤ lista ∨ base % 8 ≠ 0
      ∨ (scr ∧ scratchSize ≤ base) then none
  else some { mode := mode, kb := le bs 1 1 + 1, ncol := le bs 2 2 + 1, lista := lista, scratch := scr, wbase := base,
              wscale := BitVec.ofNat 16 (le bs 16 2) }

/-- A gather list: its entries, or none when it breaks R197. Entries name columns, or rows in ROW mode, where a row at or
beyond 512·KB has no source strip either. -/
def gatherList (g : Gather) (hd body : List Byte) : Option (List Nat) :=
  let count := le hd 0 2
  let es := (List.range count).map fun i => le body (2 * i) 2
  if 4096 < count ∨ le hd 2 2 ≠ ceilDiv count 512 ∨ ¬ (es.zip (es.drop 1)).all (fun p => decide (p.1 < p.2))
      ∨ es.any (fun e => decide (g.ncol ≤ e)) ∨ (g.mode = 2 ∧ es.any fun e => decide (512 * g.kb ≤ e)) then none
  else some es

/-- A source of one emitted strip: the strips (row tile, column) it reads; none for a zero strip. -/
inductive GatherSrc where
  | zero
  | one (r c : Nat)
  | rows (c : Nat) (rows : List Nat)
  deriving DecidableEq, Repr

/-- The `k`-th strip that the unit emits (R195). -/
def gatherSrc (g : Gather) (es : List Nat) (k : Nat) : GatherSrc :=
  let tile := k / 512
  let i := k % 512
  if g.mode = 2 then
    let tiles := max 1 (ceilDiv es.length 512)
    let c := 512 * (tile / tiles) + i
    if c < g.ncol then .rows c ((es.drop (512 * (tile % tiles))).take 512) else .zero
  else
    let cols := if g.mode = 0 then es else (List.range g.ncol).filter fun c => !es.contains c
    match cols[512 * (tile / g.kb) + i]? with
    | some c => .one (tile % g.kb) c
    | none => .zero

/-- Address of strip (r, c) of the weight tensor (R194). -/
def Gather.strip (g : Gather) (r c : Nat) : Nat := g.wbase + (r * g.ncol + c) * 104

def zeroStrip : List Byte := List.replicate 104 0

/-- The strip whose rows are given trits, with a group exponent byte (R28). -/
def stripOf (trits : List Int) (gexp : Byte) : List Byte :=
  let t := fit 0 515 (fit 0 512 trits)
  ((List.range 103).map fun k => quintetByte ((t.drop (5 * k)).take 5)) ++ [gexp]

/-! ### One strip of a load -/

/-- The first failure of a check on a strip or block: status and address. -/
abbrev LoadErr := Status × Nat

/-- A read by the loader for a task: the bytes, or what stops it. -/
def State.loadBytes (s : State) (n : Nat) (scratch : Bool) (a len : Nat) (env : Env) : State × Except Issue (List Byte) :=
  if scratch then
    if inScratch a len then s.checked n 1 a len env ((s.stn n).sbytes a len)
    else (s, .error (.stop s { st := 0x0762#16, addr := scrAddr a }))
  else
    let r := s.stnRead n (s.core n).task.desc.parcel a len env
    match r.2 with
    | .ok bs => (r.1, .ok bs)
    | .error x => (r.1, .error (.stop r.1 { st := x.1, addr := x.2, unit := 5 }))

/-- The gather list that a load uses, with the checks of R197; `k` is the strip that a fault names. -/
def State.gatherEntries (s : State) (n : Nat) (g : Gather) (k : Nat) : State × Except Issue (List Nat) :=
  let bad : State × Except Issue (List Nat) := (s, .error (.stop s { st := 0x0351#16, addr := scrAddr g.lista, idx := k }))
  let x := s.stn n
  let hd := x.sbytes g.lista 4
  let count := min 4096 (le hd 0 2)
  if !inScratch g.lista (4 + 2 * count) then bad
  else
    match gatherList g hd (x.sbytes (g.lista + 4) (2 * count)) with
    | none => bad
    | some es => (s, .ok es)

/-- The address that a fault in emitted strip `k` of a gather load names. -/
def Gather.faultAddr (g : Gather) (es : List Nat) (k : Nat) : Nat :=
  let at_ (a : Nat) : Nat := if g.scratch then scrAddr a else a
  match gatherSrc g es k with
  | .zero => 0
  | .one r c => at_ (g.strip r c)
  | .rows c rows => at_ (g.strip (((rows.map (· / 512)).eraseDups).headD 0) c)

/-- In ROW mode, emitted strip `k` from its source strips, whose group exponents agree (R195, R196). -/
def State.gatherRows (s : State) (n : Nat) (g : Gather) (k c : Nat) (rows : List Nat) (env : Env)
    : State × Except Issue (List Byte) :=
  let at_ (a : Nat) : Nat := if g.scratch then scrAddr a else a
  let tiles := (rows.map (· / 512)).eraseDups
  let srcs := tiles.foldl (fun (a : State × Except Issue (List (Nat × List Byte))) t =>
    match a.2 with
    | .error e => (a.1, .error e)
    | .ok l =>
      let b := a.1.loadBytes n g.scratch (g.strip t c) 104 env
      match b.2 with
      | .error e => (b.1, .error e)
      | .ok bs =>
        match stripFormat bs with
        | some f => (b.1, .error (.stop b.1 { st := f.1, addr := at_ (g.strip t c) + f.2, idx := k }))
        | none => (b.1, .ok (l ++ [(t, bs)]))) (s, .ok [])
  match srcs.2 with
  | .error e => (srcs.1, .error e)
  | .ok l =>
    let e0 := ((l.map fun p => le p.2 103 1).headD 0)
    if l.any fun p => le p.2 103 1 != e0 then
      (srcs.1, .error (.stop srcs.1 { st := 0x0350#16, addr := at_ (g.strip (tiles.headD 0) c) + 103, idx := k }))
    else
      let trit (row : Nat) : Int :=
        ((l.find? fun p => p.1 == row / 512).map fun p => (stripTrits p.2).getD (row % 512) 0).getD 0
      (srcs.1, .ok (stripOf (rows.map trit) (BitVec.ofNat 8 e0)))

/-- The bytes [off, off + len) of the strip that the gather unit emits as number `k`, with their offset in it; a strip made of several
is taken whole with its last byte. -/
def State.gatherTake (s : State) (n : Nat) (g : Gather) (es : List Nat) (k off len : Nat) (env : Env)
    : State × Except Issue (Option (Nat × List Byte)) :=
  match gatherSrc g es k with
  | .zero => (s, .ok (some (off, (zeroStrip.drop off).take len)))
  | .one r c =>
    let b := s.loadBytes n g.scratch (g.strip r c + off) len env
    (b.1, b.2.map fun bs => some (off, bs))
  | .rows c rows =>
    if off + len < 104 then (s, .ok none)
    else
      let b := s.gatherRows n g k c rows env
      (b.1, b.2.map fun bs => some (0, bs))

/-- Where a load of strips without the gather unit reads. -/
def StCore.loadBase (c : StCore) (ld : Load) : Bool × Nat :=
  match c.handleOf ld.reg with
  | some h => (h.scratch, h.base + srPos ld.reg)
  | none => (true, srPos ld.reg)

/-- The bytes of strip `k` of a load, and the address at which they lie, for a tile that is loaded again (R93). A merged load fed by
the gather unit, which emits 104 bytes, takes owner bits of 0. -/
def State.stripBytes (s : State) (n : Nat) (ld : Load) (k : Nat) (env : Env) : State × Except Issue (List Byte × Nat) :=
  let sz := ld.kind.size
  match ld.gather with
  | some g =>
    let l := s.gatherEntries n g k
    match l.2 with
    | .error e => (l.1, .error e)
    | .ok es =>
      let r := l.1.gatherTake n g es (ld.gpos + k) 0 104 env
      (r.1, r.2.map fun b => (fit 0 sz ((b.map (·.2)).getD []), g.faultAddr es (ld.gpos + k)))
  | none =>
    let b := (s.core n).loadBase ld
    let a := b.2 + k * sz
    let r := s.loadBytes n b.1 a sz env
    (r.1, r.2.map fun bs => (bs, if b.1 then scrAddr a else a))

/-- The checks of a strip (R85), with its count word for a merged load: status and address. -/
def stripChecks (ld : Load) (bs : List Byte) (a : Nat) (cw cwAddr : Nat) : Option LoadErr :=
  match stripFormat bs with
  | some f => some (f.1, a + f.2)
  | none =>
    match ld.kind with
    | .merged => (mergedChecks ld.blk bs cw).map fun f => (f.1, (f.2.map (a + ·)).getD cwAddr)
    | _ => none

/-- Address of the count word of strip `k` (R84). -/
def Load.countAddr (ld : Load) (k : Nat) : Nat := ld.cnta * 128 + 4 * k

/-- Reads and checks strips [k, k + m) of a load again: the columns they fill. -/
def State.loadStrips (s : State) (n : Nat) (ld : Load) (env : Env) : Nat → Nat → List Column → State × Except Issue (List Column)
  | _, 0, acc => (s, .ok acc)
  | k, m + 1, acc =>
    let r := s.stripBytes n ld k env
    match r.2 with
    | .error e => (r.1, .error e)
    | .ok (bs, a) =>
      let ca := ld.countAddr k
      match stripChecks ld bs a (le ((s.stn n).sbytes ca 4) 0 4) (scrAddr ca) with
      | some e => (r.1, .error (.stop r.1 { st := e.1, addr := e.2, idx := k }))
      | none => State.loadStrips r.1 n ld Env.clean (k + 1) m (acc ++ [stripColumn (ld.kind == .merged) bs])

/-! ### What a load has taken -/

/-- Byte `p` of a load among those taken and not yet used. -/
def bufByte (b : List (Nat × List Byte)) (p : Nat) : Byte :=
  match b.find? fun x => decide (x.1 ≤ p ∧ p < x.1 + x.2.length) with
  | some x => x.2.getD (p - x.1) 0
  | none => 0

def bufBytes (b : List (Nat × List Byte)) (p len : Nat) : List Byte := (List.range len).map fun i => bufByte b (p + i)

/-- The bytes that a load still needs once all before place `p` are used. -/
def bufFrom (b : List (Nat × List Byte)) (p : Nat) : List (Nat × List Byte) := b.filter fun x => decide (p < x.1 + x.2.length)

/-- The pass set of a bank, in the order of the passes (R110). -/
def passSet (bs : List BitBlock) : List Nat :=
  [7, 6, 5, 4, 3, 2, 1, 0].filter fun k => bs.any fun b => b.qs.any fun q => passTrit b.u b.w' k q != 0

/-! ### Planes and banks -/

def StCore.plane (c : StCore) (p : Nat) : Plane := if p = 0 then c.plane0 else c.plane1
def StCore.setPlane (c : StCore) (p : Nat) (x : Plane) : StCore := if p = 0 then { c with plane0 := x } else { c with plane1 := x }
def StCore.bank (c : StCore) (b : Nat) : Bank := if b = 0 then c.bank0 else c.bank1
def StCore.setBank (c : StCore) (b : Nat) (x : Bank) : StCore := if b = 0 then { c with bank0 := x } else { c with bank1 := x }
def StCore.activePlane (c : StCore) : Plane := c.plane (b2n c.active)

/-- The weight scale Sw that a load's stream carries (R53), or the scale of a BLOAD's handle (R122). -/
def StCore.loadScale (c : StCore) (ld : Load) : Lns :=
  match ld.kind, ld.gather with
  | .bits, _ => ((c.handleOf ld.reg).map (·.scale)).getD 0
  | _, some g => g.wscale
  | _, none => srScale ld.reg

/-- The loading target is marked empty after a fault (R86, R117). -/
def StCore.emptyTarget (c : StCore) (ld : Load) : StCore :=
  match ld.kind with
  | .bits => c.setBank ld.target .empty
  | _ => c.setPlane ld.target .empty

/-- The strips that complete in load tick `j` (R82). -/
def tickStrips (size n j : Nat) : Nat × Nat :=
  let lo := min n (j * 1024 / size)
  let hi := min n ((j + 1) * 1024 / size)
  (lo, hi)

/-- The blocks whose headers enter in load tick `j` (R116, R117). -/
def tickBlocks (size n j : Nat) : Nat × Nat := (min n (ceilDiv (j * 1024) size), min n (ceilDiv ((j + 1) * 1024) size))

/-- Whether a KIND 2 stream's bytes of one load tick lie in one interleave region of code 3 and below 24 MiB (R241). -/
def kind2Ok (im : Image) (a len : Nat) : Bool :=
  inScratch a len && (linesOf im a len).all fun p =>
    im.code p.1 == 3 && p.1 / 8 == (bankLine im a).1 / 8

/-- The bytes of a block that a load reads: for each piece its place in the block's share of the load, its offset in the block
and its length (R115, R116). -/
def blockPieces (pair : Bool) (w : Nat) : List (Nat × Nat × Nat) :=
  if w = 0 ∨ 8 < w then [(0, 0, 8)]
  else if pair then (0, 0, 8) :: (List.range w).map fun k => (8 + 32 * k, 8 + 64 * k, 32)
  else [(0, 0, burst w)]

/-- The source strips of the `k`-th strip of a gather load, by address. -/
def Station.gatherAddrs (x : Station) (g : Gather) (k : Nat) : List Nat :=
  let hd := x.sbytes g.lista 4
  match gatherList g hd (x.sbytes (g.lista + 4) (2 * min 4096 (le hd 0 2))) with
  | none => []
  | some es =>
    match gatherSrc g es k with
    | .zero => []
    | .one r c => [g.strip r c]
    | .rows c rows => (rows.map (· / 512)).eraseDups.map fun t => g.strip t c

/-- The part of a piece at place `p` of a load, `len` bytes from address `a`, that lies in the bytes [lo, lo + 1,023]. -/
def clipPiece (lo p a len : Nat) : Option (Nat × Nat) :=
  let u := max p lo
  let v := min (p + len) (lo + 1024)
  if u < v then some (a + (u - p), v - u) else none

/-- The scratchpad bytes that a load takes in its next tick: address and length (R82, R116, R222). -/
def Station.loadSpans (x : Station) (ld : Load) : List (Nat × Nat) :=
  let lo := 1024 * ld.done
  let h := x.core.handleOf ld.reg
  match ld.gather, ld.kind, h with
  | some g, _, _ =>
    let list := if 128 * ld.done < 4 + 2 * le (x.sbytes g.lista 4) 0 2 then [(g.lista / 128 * 128 + 128 * ld.done, 4)] else []
    if g.scratch then
      list ++ ((List.range 11).map fun i => lo / 104 + i).flatMap fun k =>
        if ld.n ≤ k then [] else (x.gatherAddrs g (ld.gpos + k)).filterMap fun a => clipPiece lo (104 * k) a 104
    else list
  | none, .bits, some h =>
    if h.scratch then
      let sz := bloadSize h.pitch ld.pair
      let tot := if ld.pair then 2 * ld.n else ld.n
      (List.range (1024 / sz + 2)).flatMap fun i =>
        let k := lo / sz + i
        let a := h.blockAt (srPos ld.reg + k)
        if tot ≤ k then []
        else (blockPieces ld.pair (hdrOf (x.sbytes a 8)).w).filterMap fun q => clipPiece lo (sz * k + q.1) (a + q.2.1) q.2.2
    else []
  | none, .bits, none => []
  | none, k, some h => if h.scratch then [(h.base + srPos ld.reg + lo, min 1024 (ld.n * k.size - lo))] else []
  | none, k, none => [(srPos ld.reg + lo, min 1024 (ld.n * k.size - lo))]

/-- Folds a step that may stop over a list. -/
def stepsOver {α β : Type} (l : List α) (z : State × Except Issue β) (f : State → β → α → State × Except Issue β)
    : State × Except Issue β :=
  l.foldl (fun a x => match a.2 with
    | .error e => (a.1, .error e)
    | .ok b => f a.1 b x) z

/-- The pieces of a load of strips that its next tick takes, 1,024 B in all (R82): from the weight stream, or from the strips that the
gather unit emits. -/
def State.takeStrips (s : State) (n : Nat) (ld : Load) (env : Env) : State × Except Issue (List (Nat × List Byte)) :=
  let lo := 1024 * ld.done
  let sz := ld.kind.size
  match ld.gather with
  | some g =>
    let first := lo / sz
    let l := s.gatherEntries n g first
    match l.2 with
    | .error e => (l.1, .error e)
    | .ok es =>
      stepsOver ((List.range 11).map fun i => first + i) (l.1, .ok []) fun s acc k =>
        if ld.n ≤ k then (s, .ok acc)
        else
          match clipPiece lo (sz * k) 0 104 with
          | none => (s, .ok acc)
          | some (off, len) =>
            let r := s.gatherTake n g es (ld.gpos + k) off len (if acc.isEmpty then env else Env.clean)
            (r.1, r.2.map fun b => acc ++ (b.map fun x => (sz * k + x.1, x.2)).toList)
  | none =>
    let b := (s.core n).loadBase ld
    let len := min 1024 (ld.n * sz - lo)
    if srKind ld.reg = 2 ∧ !kind2Ok (s.core n).task.image (b.2 + lo) len then
      (s, .error (.stop s { st := 0x0765#16, addr := scrAddr (b.2 + lo) }))
    else
      let r := s.loadBytes n b.1 (b.2 + lo) len env
      (r.1, r.2.map fun bs => [(lo, bs)])

/-- The count words of an ALOADM that arrive in its next tick: 32 a tick (R84). -/
def State.takeCounts (s : State) (n : Nat) (ld : Load) (env : Env) : State × Except Issue (List Nat) :=
  if ld.kind == .merged && decide (ld.done < ceilDiv ld.n 32) then
    let a := ld.countAddr (32 * ld.done)
    let r := (s.touchAt n 1 ld.next a 128).loadBytes n true a 128 env
    (r.1, r.2.map fun bs => (List.range 32).map fun i => le bs (4 * i) 4)
  else (s, .ok [])

/-- The strips that are complete after a tick are checked in their order and fill columns (R82, R85). -/
def State.fillColumns (s : State) (n : Nat) (ld : Load) : State × Except Issue (List Column) :=
  let sz := ld.kind.size
  let w := tickStrips sz ld.n ld.done
  stepsOver ((List.range (w.2 - w.1)).map (w.1 + ·)) (s, .ok []) fun s acc k =>
    let bs := bufBytes ld.buf (sz * k) sz
    let a := match ld.gather with
      | some g => (match (s.gatherEntries n g k).2 with
        | .ok es => g.faultAddr es (ld.gpos + k)
        | .error _ => 0)
      | none => let b := (s.core n).loadBase ld; if b.1 then scrAddr (b.2 + k * sz) else b.2 + k * sz
    match stripChecks ld bs a (ld.counts.getD k 0) (scrAddr (ld.countAddr k)) with
    | some e => (s, .error (.stop s { st := e.1, addr := e.2, idx := k }))
    | none => (s, .ok (acc ++ [stripColumn (ld.kind == .merged) bs]))

/-- The pieces of a BLOAD that its next tick takes (R115, R116): each block's header is checked in the tick in which it enters (R117). -/
def State.takeBlocks (s : State) (n : Nat) (ld : Load) (h : Handle) (env : Env) : State × Except Issue (List (Nat × List Byte)) :=
  let lo := 1024 * ld.done
  let sz := bloadSize h.pitch ld.pair
  let tot := if ld.pair then 2 * ld.n else ld.n
  stepsOver ((List.range (1024 / sz + 2)).map fun i => lo / sz + i) (s, .ok []) fun s acc k =>
    if tot ≤ k ∨ lo + 1024 ≤ sz * k then (s, .ok acc)
    else
      let a := h.blockAt (srPos ld.reg + k)
      let e := if acc.isEmpty then env else Env.clean
      let hd : State × Except Issue (List Byte) :=
        if sz * k < lo then (s, .ok (bufBytes ld.buf (sz * k) 8))
        else if h.scratch && inScratch a 8 then (s, .ok ((s.stn n).sbytes a 8)) else s.loadBytes n h.scratch a 8 { e with ce := false }
      match hd.2 with
      | .error e => (hd.1, .error e)
      | .ok hb =>
        let hdr := hdrOf hb
        match if sz * k < lo then none else hdrCheck h.pitch hdr with
        | some st => (hd.1, .error (.stop hd.1 { st := st, addr := if h.scratch then scrAddr a else a }))
        | none =>
          stepsOver (blockPieces ld.pair hdr.w) (hd.1, .ok acc) fun s acc q =>
            match clipPiece lo (sz * k + q.1) (a + q.2.1) q.2.2 with
            | none => (s, .ok acc)
            | some (b, len) =>
              let r := s.loadBytes n h.scratch b len (if acc.isEmpty then env else Env.clean)
              (r.1, r.2.map fun bs => acc ++ [(sz * k + q.1 + (b - (a + q.2.1)), bs)])

/-- Block `k` of a BLOAD from the bytes taken: the elements and exponents it brings (R114, R115). -/
def Load.block (ld : Load) (pitch k : Nat) : BitBlock :=
  let p := bloadSize pitch ld.pair * k
  let hd := hdrOf (bufBytes ld.buf p 8)
  let w := if 8 < hd.w then 0 else hd.w
  let pl := if ld.pair then (List.range w).flatMap fun i => fit 0 64 (bufBytes ld.buf (p + 8 + 32 * i) 32)
    else bufBytes ld.buf (p + 8) (64 * w)
  let q := blockElems true hd pl
  let qs := if ld.pair then q.take 256 else q
  { u := hd.u, w' := effWidth hd qs, qs := qs, es := if ld.pair then hd.es.take 4 else hd.es }

/-- The blocks of a BLOAD that are complete after its next tick, from the first on that was not before. -/
def Load.blocksDone (ld : Load) (pitch : Nat) : Nat × Nat :=
  let sz := bloadSize pitch ld.pair
  let tot := if ld.pair then 2 * ld.n else ld.n
  (min tot (1024 * ld.done / sz), if ld.len ≤ ld.done + 1 then tot else min tot (1024 * (ld.done + 1) / sz))

def StCore.putLoad (c : StCore) (ld : Load) : StCore := { c with load := some ld }

/-- One load tick (R82, R84, R85, R116): the new state, or what stops it. -/
def State.loadTick (s : State) (n : Nat) (ld : Load) (env : Env) : State × Except Issue Unit :=
  let s := ((s.stn n).loadSpans ld).foldl (fun (s : State) p => s.touchAt n 1 ld.next p.1 p.2) s
  match ld.kind, (s.core n).handleOf ld.reg with
  | .bits, some h =>
    let r := s.takeBlocks n ld h (env.of 0)
    match r.2 with
    | .error e => (r.1, .error e)
    | .ok ps =>
      let ld := { ld with buf := ld.buf ++ ps }
      let w := ld.blocksDone h.pitch
      let bl := (List.range (w.2 - w.1)).map fun i => ld.block h.pitch (w.1 + i)
      (r.1.modCore n fun c =>
        let b := c.bank ld.target
        (c.setBank ld.target { b with blocks := b.blocks ++ bl }).putLoad
          { ld with buf := bufFrom ld.buf (bloadSize h.pitch ld.pair * w.2) }, .ok ())
  | .bits, none => (s, .error (.stop s { st := 0x0734#16 }))
  | k, _ =>
    let r := s.takeStrips n ld (env.of 0)
    match r.2 with
    | .error e => (r.1, .error e)
    | .ok ps =>
      let q := r.1.takeCounts n ld (env.of 1)
      match q.2 with
      | .error e => (q.1, .error e)
      | .ok cs =>
        let ld := { ld with buf := ld.buf ++ ps, counts := ld.counts ++ cs }
        let f := q.1.fillColumns n ld
        match f.2 with
        | .error e => (f.1, .error e)
        | .ok cols =>
          (f.1.modCore n fun c =>
            let p := c.plane ld.target
            (c.setPlane ld.target { p with cols := p.cols ++ cols }).putLoad
              { ld with buf := bufFrom ld.buf (k.size * (tickStrips k.size ld.n ld.done).2) }, .ok ())

/-- The end of the last tick of a load: the plane or bank is full (R75, R82, R112). -/
def StCore.loadDone (c : StCore) (ld : Load) : StCore :=
  let c := match ld.kind with
    | .bits =>
      let b := c.bank ld.target
      c.setBank ld.target { b with fill := .full, passes := passSet b.blocks }
    | _ =>
      let p := c.plane ld.target
      c.setPlane ld.target { p with fill := .full }
  { c with load := none }.count .arrLoads

/-- The unit that a status of the loader belongs to. -/
def Load.unit (ld : Load) (st : Status) : Nat :=
  if ld.kind = .bits then 1 else if st.toNat / 16 = 0x35 then 3 else 0

end Sys2Proof.Machine
end

