-- ==== Sys2Proof/Machine/TaskEnd.lean ====
section
/-!
DEFINITION. The adder tree and Datum replays (R89, R93, R95, R131, R146, R159 to R161), and the end of a task: its
completion record (R288, R289), the registers it sets, and what becomes of its slots, planes, request and tracker entry
(R68, R76, R150, R274).
-/

namespace Sys2Proof.Machine

/-! ### Replays -/

/-- The ticks of a load in progress that lie at or before array tick `detect` (R93): array and program ticks go together up to the
present bundle and through a hold in which the loader goes on. -/
def StCore.loadDoneBy (c : StCore) (l : Load) (detect : Nat) : Nat :=
  l.done - (l.next - 1 + c.atick - (c.tick + detect))

/-- The columns that a tile's plane held: the plane's own while it still holds them, else the tile's load read again
(R93, phase 3); the second result is the ticks of phases 3 and 6. Phase 6 redoes the later load: what it had taken while it is in
its ticks, all of it when it has ended; nothing where a BRUN has emptied the plane. A tile whose planes a later BRUN has overwritten is read
again as well (DESIGN CHOICE, log entry 120: R93 names a later load alone). -/
def State.tileColumns (s : State) (n : Nat) (t : Tile) (detect : Nat) (env : Env)
    : State × Except Issue (Plane × Nat × Nat) :=
  let c := s.core n
  let pl := c.plane t.plane
  if pl.src = t.src && pl.fill == .full then (s, .ok (pl, 0, 0))
  else
    let ld := tget .none c.loads t.src
    let r := s.loadStrips n ld env 0 ld.n []
    let p := match pl.fill, c.load with
      | .loading, some l => c.loadDoneBy l detect
      | .full, _ => (tget .none c.loads pl.src).len
      | _, _ => 0
    match r.2 with
    | .error e => (r.1, .error e)
    | .ok cols => (r.1, .ok ({ pl with fill := .full, merged := ld.kind == .merged, blk := ld.blk, cols := cols,
                                       src := t.src, scale := c.loadScale ld }, ld.len, p))

/-- Adds products to a slot in order: the slot, the contributions changed, whether one overflows. -/
def addAll (x : Slot) : List (List (Nat × List (Int × Int))) → Slot × Nat × Bool
  | [] => (x, 0, false)
  | t :: r =>
    let a := x.addProduct t
    if a.2.2 then a
    else
      let b := addAll a.1 r
      (b.1, a.2.1 + b.2.1, b.2.2)

/-- The ternary tile of a number: the present one or one of those before it. -/
def StCore.tileOf (c : StCore) (id : Nat) : Tile :=
  if c.tile.id = id then c.tile else (c.prevs.find? fun t => t.id == id).getD c.tile

/-- The block that a replay reads again (R93, R131). -/
def State.replayRead (s : State) (n : Nat) (reg : BitVec 64) (pos unit : Nat) (env : Env)
    : State × Except Issue (List Int × List Int) :=
  match (s.core n).handleOf reg with
  | none => (s, .error (.stop s { st := 0x0765#16, unit := 4 }))
  | some h =>
    let r := s.readBlock n 0 h pos env unit
    (r.1, r.2.map fun b => (blockElems false b.1 b.2, b.1.es))

/-- The products that a replay issues again (R93 phase 4, R131 phase 3), read from memory as it stands (R94, R126): the
products, the frozen ticks of the replay, and those of phases 3 and 6. What `env` says meets the first block read again. -/
def State.replayTerms (s : State) (n : Nat) (rp : Replay) (env : Env)
    : State × Except Issue (List (List (Nat × List (Int × Int))) × Nat × Nat) :=
  let c := s.core n
  if rp.brun then
    match c.bruns.find? (fun b => b.tile == rp.tile) with
    | none => (s, .ok ([], 30, 0))
    | some b =>
      let bk := c.bank b.bank
      let r := s.replayRead n b.reg (srPos b.reg + (rp.slot - b.s0)) 1 env
      (r.1, r.2.map fun q => (rp.passes.map fun k => passTerms bk k q.1 q.2, 30 + 5 * rp.passes.length, 0))
  else
    let r := s.tileColumns n (c.tileOf rp.tile) rp.detect (env.of 1)
    match r.2 with
    | .error e => (r.1, .error e)
    | .ok (pl, lt, p) =>
      let q := stepsOver rp.amacs (r.1, .ok []) fun s acc (m : AmacRec) =>
        let b := s.replayRead n m.reg (srPos m.reg) 0 (if acc.isEmpty then env.of 0 else Env.clean)
        (b.1, b.2.map fun q => acc ++ [macTerms pl q.1 q.2])
      (q.1, q.2.map fun l => (l, 22 + rp.amacs.length + lt + p, lt + p))

/-- What one replay of a slot comes to. -/
inductive ReplayEnd where
  | done | again | fault (f : Flt) | rerun (word : Nat)
  deriving DecidableEq, Repr

/-- The slots that keep their contents from before a BRUN whose block fails in a replay: all that the BRUN fills (R130); the slot itself
for a ternary tile (R68). -/
def StCore.replayDrop (c : StCore) (rp : Replay) : List Nat :=
  if rp.brun then (List.range 64).filter fun k => (c.slot k).isOpen && (c.slot k).tile == rp.tile else [rp.slot]

/-- Performs the phases of one replay (R93, R131, R159 to R161): the Datum rises by 4 over the replays made before, the
work is issued again, and the slot holds the sum, overflows again, or ends the task at a fourth overflow or a Datum above
+127. -/
def State.doReplay (s : State) (n : Nat) (rp : Replay) (env : Env) : State × ReplayEnd :=
  let c := s.core n
  let x := c.slot rp.slot
  let j := x.replays + 1
  let bad (s : State) (st : Status) : State × ReplayEnd :=
    (s.modCore n fun c => c.setSlot rp.slot (x.setActive x.begin x.beginD),
     .fault { st := st, idx := rp.slot, aux := x.replays, unit := 2, slot := rp.slot, drop := [rp.slot] })
  if 3 < j then bad s 0x0740#16
  else if 127 < x.beginD + 4 * j then bad s 0x0741#16
  else
    let r := s.replayTerms n rp env
    match r.2 with
    | .error (.stop _ f) => (r.1, .fault { f with drop := c.replayDrop rp })
    | .error (.rerun _ w) => (r.1, .rerun w)
    | .error _ => (r.1, .done)
    | .ok (ts, ticks, loads) =>
      let y := { x.rewind j with replays := j }
      let a := addAll y ts
      let s := r.1.modCore n fun c' =>
        let c := ((({ c' with accs := c.accs }.setSlot rp.slot a.1).count .accInexact a.2.1).count .accReplays).count .arrReplayTicks ticks
        let c := c.count .arrLoadTicks loads
        { c with task := { c.task with replays := satAdd 0xFFFF c.task.replays 1 },
                 accStatus := if j = 3 then setB c.accStatus 1 else c.accStatus }
      (s, if a.2.2 then .again else .done)

/-- The replay that an overflow of a product begins: the AMACs of its tile that named the slot, or the passes in which
its vector had issued (R93, R131). -/
def StCore.replayOf (c : StCore) (p : Product) : Replay :=
  if p.brun then
    let ks := match c.bruns.find? fun b => b.tile == p.tile with
      | some b =>
        let tp := max b.b 4
        ((c.bank b.bank).passes).take ((List.range (c.bank b.bank).passes.length).filter fun j =>
          decide (b.u + 4 + j * tp + (p.slot - b.s0) ≤ p.u + 8)).length
      | none => []
    { slot := p.slot, tile := p.tile, brun := true, amacs := [], passes := ks, detect := p.u + 8 }
  else
    let t := c.tileOf p.tile
    { slot := p.slot, tile := p.tile, brun := false, amacs := t.amacs.filter fun m => m.slot == p.slot, passes := [],
      detect := p.u + 8 }

/-- Adds the oldest product of the tree to its slot (R89): products of a slot under replay are left to the replay. The
result tells whether the slot overflows. -/
def State.addOldest (s : State) (n : Nat) : State × Option Replay :=
  let x := s.stn n
  match x.core.tree with
  | [] => (s, none)
  | p :: r =>
    let skip := (x.replay.toList ++ x.queued).any fun rp =>
      rp.slot == p.slot && rp.tile == p.tile && decide (p.u ≤ rp.detect)
    let s := s.modCore n fun c => { c with tree := r }
    let y := (s.core n).slot p.slot
    if skip ∨ !y.isOpen ∨ y.tile ≠ p.tile then (s, none)
    else
      let a := y.addProduct p.terms
      let s := s.modCore n fun c => (c.setSlot p.slot a.1).count .accInexact a.2.1
      (s, if a.2.2 then some (x.core.replayOf p) else none)

/-- A queue of replays, lowest slot first among those found together (R95). -/
def queueReplay (l : List Replay) (r : Replay) : List Replay := l ++ [r]

/-- Runs replays of one slot until it holds or the task ends (R160). The task has stopped already: a check error that a replay meets then
begins no re-run. -/
def State.replayLoop (s : State) (n : Nat) (rp : Replay) (env : Env) : Nat → State × Option Flt
  | 0 => (s, none)
  | k + 1 =>
    let r := s.doReplay n rp env
    match r.2 with
    | .done => (r.1, none)
    | .fault f => (r.1, some f)
    | .rerun w => (r.1, some { st := 0x0361#16, addr := scrAddr w })
    | .again => State.replayLoop r.1 n rp env k

/-- The tree empties at a stop: every product reaches its slot, with the replays this calls for (R86, R150). -/
def State.settle (s : State) (n : Nat) : Nat → State
  | 0 => s
  | k + 1 =>
    match (s.core n).tree with
    | [] => s
    | _ :: _ =>
      let r := s.addOldest n
      match r.2 with
      | none => State.settle r.1 n k
      | some rp =>
        let q := r.1.replayLoop n rp Env.clean 4
        let s := match q.2 with
          | some f => q.1.modCore n fun c => f.drop.foldl StCore.dropSlot c
          | none => q.1
        State.settle s n k

/-! ### The completion record (R288, R289) -/

/-- Whether FAULT_INDEX and FAULT_AUX have a meaning for a status (R289). -/
def hasIndex (st : Status) : Bool :=
  let v := st.toNat
  decide (0x0310 ≤ v ∧ v ≤ 0x0312) || decide (0x0320 ≤ v ∧ v ≤ 0x0324) || v == 0x0350 || v == 0x0351 || v == 0x0710 || v == 0x0711
    || v == 0x0740 || v == 0x0741 || v == 0x0370

/-- The 64 bytes of a completion record. -/
def recordOf (t : Task) (n : Nat) (nostn : Bool) (st : Status) (tick addr idx aux aon : Nat) : List Byte :=
  let d := t.desc
  natLe 2 st.toNat ++ natLe 2 (d.taskid % 4096 + (d.facet % 4) <<< 12)
    ++ natLe 4 (d.serial % 2 ^ 24 + (if nostn then 2 ^ 30 else (n % 64) <<< 24))
    ++ natLe 8 tick ++ natLe 8 addr ++ natLe 2 (if hasIndex st then idx else 0) ++ natLe 2 (if hasIndex st then aux else 0) ++ natLe 4 t.frzTier ++ natLe 4 t.frzDuty
    ++ natLe 4 t.slip ++ natLe 1 t.reruns ++ natLe 1 t.bspMax ++ natLe 2 t.replays ++ natLe 4 t.holds
    ++ natLe 4 t.bspTotal ++ natLe 4 t.bspDecl ++ natLe 4 t.bspOver ++ natLe 4 (min 0xFFFFFFFF aon)

/-- The registers that a status ending a task sets (R70, R102, R138, R175, R215, R261). -/
def StCore.statusRegs (c : StCore) (f : Flt) : StCore :=
  let v := f.st.toNat
  let fmt := decide (0x0310 ≤ v ∧ v ≤ 0x0315)
  let arr := (decide (0x0310 ≤ v ∧ v ≤ 0x0312) && f.unit == 0) || decide (0x0320 ≤ v ∧ v ≤ 0x0324)
    || decide (0x0720 ≤ v ∧ v ≤ 0x0723)
  let bsp := decide (0x0730 ≤ v ∧ v ≤ 0x0735) || (fmt && f.unit == 1)
  let acc := v == 0x0340 || v == 0x0341 || decide (0x0740 ≤ v ∧ v ≤ 0x0746)
  let gat := decide (0x0350 ≤ v ∧ v ≤ 0x0352)
  let recCode := decide (0x0750 ≤ v ∧ v ≤ 0x0752) || v == 0x0754
  let rec' := gat || recCode || v == 0x0753 || (fmt && f.unit == 3)
  let chk := decide (0x0360 ≤ v ∧ v ≤ 0x0362)
  let prog := decide (0x0160 ≤ v ∧ v ≤ 0x0163) || decide (0x0761 ≤ v ∧ v ≤ 0x0768)
  { c with
    fmtStatus := if fmt then setB c.fmtStatus 5 else c.fmtStatus,
    arrStatus := if arr then setLast (setB c.arrStatus 6) f.st else c.arrStatus,
    bspStatus := if bsp then setLast (setB c.bspStatus 0) f.st else c.bspStatus,
    accStatus := if acc then
      (setLast (setB c.accStatus 0) f.st &&& ~~~ 0x3F00#32) ||| (BitVec.ofNat 32 (f.slot % 64) <<< 8) else c.accStatus,
    recStatus := if rec' then
      setLast (c.recStatus ||| BitVec.ofNat 32 (b2n gat * 2 + b2n (recCode || (fmt && f.unit == 3)) + b2n (v == 0x0753) * 8))
        f.st else c.recStatus,
    stnStatus := if chk || prog || v == 0x0760 then
      setLast (c.stnStatus ||| BitVec.ofNat 32 (b2n chk * 8 + b2n (v == 0x0760) * 4 + b2n prog * 2)) f.st
      else c.stnStatus }

/-- A core between tasks: planes and banks cleared and empty (R76, R112), Recon's union and counts cleared (R191), nothing
in flight; slots stand for a task that retains them (R162). -/
def StCore.betweenTasks (c : StCore) : StCore :=
  { c.abandon with stnStatus := c.stnStatus &&& ~~~ 0x20#32, plane0 := .empty, plane1 := .empty, active := false,
                   bank0 := .empty, bank1 := .empty, loads := [], union := 0, pblk := none, recFree := 0, recVisible := 0,
                   recChk := 0, gathers := [], drainFree := 0, tbuf := [], tcount := [], ternFree := 0, stepped := false,
                   saved := .empty }

/-- Every open slot closes, but for the slots that keep their contents from before the tile (R68, R150). -/
def StCore.closeAll (c : StCore) (drop : List Nat) : StCore :=
  let c := drop.foldl StCore.dropSlot c
  (tkeys c.slots).foldl StCore.closeSlot c

/-- The success qualifiers of a task, lowest first (R69, R174). -/
def Task.status (t : Task) : Status :=
  let f := t.flags
  let own : List Status :=
    if 0 < f.lsat ∨ 0 < f.psat ∨ f.divz then [0x0001#16] else if 0 < f.lufl ∨ 0 < f.pufl then [0x0002#16] else []
  (own ++ t.quals).foldl (fun a q => if a = 0 then q else if q.toNat < a.toNat then q else a) 0

/-- The Station leaves a task: it is idle and may receive another (R261). It stays Running while the tracker has a task for
it, and enters Ready otherwise (R487). After a test its scrub follows when its Parcel is being reset (R434). -/
def State.stnIdle (s : State) (n : Nat) : State :=
  let scrub := (s.core n).task.kat && (match s.holder n with
    | some p => (s.parcel p).st == .resetting
    | none => false)
  let s := s.modStn n fun x =>
    { x with core := { x.core.betweenTasks with stnStatus := x.core.stnStatus &&& ~~~ 0x20#32 ||| 1#32 }, snap := none, ops := [],
             doubt := none, rerun := none, held := none, replay := none, queued := [], mode := .idle,
             prev := if x.core.task.kat then none else some (x.core.task.desc.parcel, x.core.task.image) }
  if scrub then s.killStation n else if s.hasWork n then s else s.setSpow n .ready

/-- Whether a Station's task holds the entry that its descriptor names. -/
def State.ownEntry (s : State) (n : Nat) : Bool :=
  let d := (s.core n).task.desc
  (s.entry d.facet d.taskid).stn == some n

/-- Kills the task of a Station and ends it with a status (R285, R504, R512): its record names the present tick, the owners
end, the Station is scrubbed. -/
def State.killTask (s : State) (n : Nat) (st : Status) (idx : Nat := 0) : State :=
  let c := s.core n
  let d := c.task.desc
  let own := s.ownEntry n
  let s := (s.killStation n).putRecord (recordOf c.task n false st c.tick 0 idx 0 (s.aon - c.task.dispatch))
  let s := if own then s.freeEntry d.facet d.taskid st else s
  s.endOwners d st

/-! ### Withdrawal (R504 to R506) -/

/-- The position of the first generated token whose TOKENS frame left at or after `from'` (R505). -/
def Request.suspectOffset (q : Request) (from' : Nat) : Nat :=
  (((List.range q.sentAt.length).zip q.sentAt).find? fun p => decide (from' ≤ p.2)).elim q.gen.length (·.1)

/-- A request of the suspect window ends, or is ended again in ENDING, with 0x03E0 and its OFFSET (R505). -/
def State.suspect (s : State) (r from' : Nat) : State :=
  let q := s.req r
  let off := q.suspectOffset from'
  if q.live then s.requestEnd r 0x03E0#16 off
  else if q.st = .ending then
    (s.toClient r 0x83 0x03E0#16 off q.endPay).modReq r fun q =>
      { q with endSt := 0x03E0#16, endOff := off, endSends := 1, lastEnd := s.aon }
  else s

/-- DETAIL of STATION_WITHDRAWN (R427). -/
def withdrawnDetail (n : Nat) (st : Status) : List Byte := natLe 1 n ++ natLe 1 0 ++ natLe 2 st.toNat

/-- The known-answer tests made for a Station leave the tracker: a withdrawn Station runs none (R287, R487, R504). -/
def State.dropTests (s : State) (n : Nat) : State :=
  { s with trk := { s.trk with table := s.trk.table.filter fun e =>
    !(e.1 / 4096 == facetOf n && e.2.desc.kind == 5 && e.2.desc.stmask == 2 ^ (n % 16)) } }

/-- Withdraws a Station (R504, R506): a task running there is killed, the Station is scrubbed, entries go to its Parcel's
mailbox and to the maintenance mailbox. -/
def State.withdraw (s : State) (n : Nat) (st : Status) : State :=
  if s.isWithdrawn n then s
  else
    let x := s.stn n
    let s := { s with dep := { s.dep with withdrawn := s.dep.withdrawn ||| (1#64 <<< n) } }
    let s := if (x.mode == .running || x.mode == .rerun) && !x.core.task.kat then s.killTask n st else s.killStation n
    let s := (s.dropTests n).modStn n fun x => { x with katDue := false }
    let s := match s.holder n with
      | some p => s.notify p 0x0041 (withdrawnDetail n st)
      | none => s
    s.notify 16 0x0041 (withdrawnDetail n st)

/-- A known-answer test fails (R504, R505): its Stations are withdrawn and the requests of the suspect window end. `unit` and
`test` are the DETAIL of R521. -/
def State.katFailed (s : State) (ns : List Nat) (unit test from' : Nat) : State :=
  let rs := ((s.dep.log.filter fun l => ns.contains l.2.1 && decide (from' ≤ l.2.2 ∧ l.2.2 < s.aon)).map (·.1)).eraseDups
  let s := s.modCount .katFails
  let s := s.cairnEvent 0x0010 0x03E0#16 (natLe 1 unit ++ natLe 1 test)
  let s := ns.foldl (fun s n => s.withdraw n 0x03E0#16) s
  rs.foldl (fun s r => s.suspect r from') s

/-- Ends the task of a Station with a status other than success (R68): the tree empties, slots close, the registers are
set, the record is written, the entry is freed, and the owners end. A fault in a bundle is named at that bundle's tick. A
known-answer test that ends so has not the expected result (R504). The passes of a BRUN that have not issued by then never run, and its slots
close with their partial sums (DESIGN CHOICE, log entry 121: R130 speaks of the BRUN's own fault only). -/
def State.endTask (s : State) (n : Nat) (f : Flt) (tick : Nat) : State :=
  let s := s.settle n ((s.core n).tree.length)
  let s := s.modCore n fun c => (c.closeAll f.drop).statusRegs f
  let c := s.core n
  let t := c.task
  let d := t.desc
  let own := s.ownEntry n
  let s := s.putRecord (recordOf t n false f.st tick (if f.st = 0x0760#16 then c.conflict.toNat else f.addr) f.idx f.aux
    (s.aon - t.dispatch))
  let s := s.stnIdle n
  let s := { s with mem := { s.mem with acks := s.mem.acks.filter fun a => a.2.1 != n } }
  let s := if own then s.freeEntry d.facet d.taskid f.st else s
  if t.kat then s.katFailed [n] n 0 (s.stn n).lastKat
  else if f.st = 0x0753#16 then s else s.endOwners d f.st

/-- The counters of a bundle that writes nothing: check errors found and corrected stay counted (R258, R262). -/
def StCore.keepChecks (c0 c : StCore) : Tab (BitVec 64) :=
  let keep (t : Tab (BitVec 64)) (k : SC) : Tab (BitVec 64) := if ctrGet c.ctr k.num = ctrGet t k.num then t else fput t k.num (ctrGet c.ctr k.num)
  keep (keep c0.ctr .chkDetected) .chkCorrected

/-- A fault at the open bundle: the bundle writes nothing, and the task stops there (R66, R68). What the failing access
did to memory stands. -/
def State.stopTask (s : State) (n : Nat) (f : Flt) : State :=
  let x := s.stn n
  let s := match x.snap with
    | some c0 =>
      let conflict := x.core.conflict
      s.modStn n fun x => { x with core := { c0 with conflict := conflict,
                                                     ctr := c0.keepChecks x.core },
                                   snap := none, ops := [], doubt := none, rerun := none }
    | none => s
  s.endTask n f (s.core n).tick

end Sys2Proof.Machine
end

