-- ==== Sys2Proof/Machine/Recon.lean ====
section
/-!
DEFINITION. Recon: the parameter block and its checks (R186, R187), the input blocks, the draws and the counts (R179 to
R183), the estimate, the spread and the decision (R182, R184), the record (R191), the lists of RFIN (R192) and the
comparison of RCHK (R203).
-/

namespace Sys2Proof.Machine

/-! ### The parameter block -/

/-- G, the number of output groups (R183), and G′, the smallest power of two not below it (R189). -/
def Param.groups (p : Param) : Nat := ceilDiv p.n 512
def Param.gpow (p : Param) : Nat :=
  let g := p.groups
  if g ≤ 1 then 1 else if g ≤ 2 then 2 else if g ≤ 4 then 4 else 8
/-- Draws per tick, generators drawn per tick, draws and draw ticks (R189, R190). -/
def Param.perTick (p : Param) : Nat := 8 / p.gpow
def Param.gensUsed (p : Param) : Nat := ceilDiv p.perTick 2
def Param.draws (p : Param) : Nat := 2 ^ p.log2l
def Param.drawTicks (p : Param) : Nat := p.draws * p.gpow / 8
def Param.decTicks (p : Param) : Nat := if p.mode = 2 then 2 * p.groups else p.groups

/-- The fields of a parameter block (R186). -/
def paramOf (addr : Nat) (bs : List Byte) : Param :=
  { addr := addr, kb := le bs 0 1 + 1, tt := bits (le bs 1 1) 0 0 == 1, wt := bits (le bs 1 1) 1 1 == 1,
    rs := bits (le bs 1 1) 2 2 == 1, n := le bs 2 2 % 4096 + 1, log2l := le bs 4 1, mode := le bs 5 1, guard := le bs 6 1,
    audlog := le bs 7 1, theta := BitVec.ofNat 16 (le bs 8 2), ofs := le bs 10 2, first := le bs 12 1, lastn := le bs 13 1,
    rbase := le bs 16 8, ttab := le bs 24 4, wtab := le bs 28 4, reca := le bs 32 4, lista := le bs 36 4,
    alista := le bs 40 4 }

/-- Whether `len` bytes from `a` lie in the scratchpad. -/
def areaOk (a len : Nat) : Bool := decide (a < scratchSize ∧ a + len ≤ scratchSize)

/-- Whether a parameter block is legal (R186, R187), its areas being taken as 4 + 2N bytes for the gather list, 576 × (TOK + 1) for the records
and 1 + NTOK for the audit list (DESIGN CHOICE, log entry 123: the rule says only that an area may not extend beyond the scratchpad), for an
operation that reaches the record of `tok` and, for an RFIN,
lists `ntok` tokens. -/
def paramOk (p : Param) (bs : List Byte) (tok ntok : Nat) : Bool :=
  decide (le bs 0 1 < 128 ∧ le bs 1 1 < 8 ∧ le bs 2 2 < 4096 ∧ 4 ≤ p.log2l ∧ p.log2l ≤ 10 ∧ p.mode ≤ 2)
    && (p.audlog == 0 || decide (6 ≤ p.audlog ∧ p.audlog ≤ 12))
    && decide (p.ofs + p.n ≤ 65536)
    && (if p.mode = 2 then decide (1 ≤ p.lastn) else p.first == 0 && p.lastn == 0)
    && zeros bs 14 2 && zeros bs 44 20
    && p.rbase % 8 == 0
    && (if p.rs then areaOk p.rbase (512 * p.kb * p.groups * 104) else decide (p.rbase < 2 ^ 44))
    && areaOk p.ttab (if p.tt then 2 * p.n else 0) && areaOk p.wtab (if p.wt then 2 * p.n else 0)
    && areaOk p.reca (576 * (tok + 1)) && areaOk p.lista (4 + 2 * p.n)
    && areaOk p.alista (if p.audlog = 0 then 1 else 1 + ntok)

/-! ### Magnitudes and draws (R180, R181) -/

/-- An input block as a job keeps it: whether Z = 1, its elements and its exponents. -/
abbrev InBlock := Bool × List Int × List Int

/-- Emax of the input (R180). -/
def emaxOf (ins : List InBlock) : Int := maxInt (-1000) ((ins.filter fun b => !b.1).flatMap fun b => b.2.2)

/-- The magnitudes m of the input's elements (R180). -/
def magsOf (ins : List InBlock) : List Nat :=
  let em := emaxOf ins
  ins.flatMap fun b =>
    if b.1 then List.replicate 512 0
    else ((List.range 512).zip b.2.1).map fun p =>
      (shiftFloor (p.2.natAbs : Int) (b.2.2.getD (p.1 / 64) 0 - em + 16)).toNat

/-- S1 = T × 2^(Emax − 16) × |S| as an LNS16 word (R180). -/
def s1Of (ins : List InBlock) (total : Nat) (scale : Lns) : Lns × FmtEv :=
  lnsOfElem total (emaxOf ins - 16) (scale &&& 0x7FFF#16)

/-- The smallest index whose prefix sum exceeds v (R181). -/
def drawIndex : List Nat → Nat → Nat → Nat
  | [], _, i => i
  | m :: r, v, i => if v < m then i else drawIndex r (v - m) (i + 1)

/-- One draw: the index that a 32-bit word selects (R181). -/
def RecJob.index (j : RecJob) (r : Nat) : Nat := drawIndex j.mags (r * j.total / 2 ^ 32) 0

/-- The sign of input element `i`. -/
def RecJob.signAt (j : RecJob) (i : Nat) : Int :=
  if ((j.ins.getD (i / 512) (true, [], [])).2.1).getD (i % 512) 0 < 0 then -1 else 1

/-- Address of the Recon strip of input `i` and group `g` (R183). -/
def Param.strip (p : Param) (i g : Nat) : Nat := p.rbase + (i * p.groups + g) * 104

/-- The trits of input `i` for every output, or what stops Recon at the strip that fails (R183). -/
def State.reconRow (s : State) (n : Nat) (p : Param) (i : Nat) (env : Env) : State × Except Issue (List Int) :=
  stepsOver (List.range p.groups) (s, .ok []) fun s l g =>
    let ad := p.strip i g
    let fa := if p.rs then scrAddr ad else ad
    let r := s.fetch n 9 p.rs ad 104 (if g = 0 then env else Env.clean) 3
    match r.2 with
    | .error e => (r.1, .error e)
    | .ok bs =>
      match stripFormat bs with
      | some f => (r.1, .error (.stop r.1 { st := f.1, addr := fa + f.2, idx := i, unit := 3 }))
      | none => (r.1, .ok (l ++ fit 0 512 (stripTrits bs)))

/-- One draw's words counted: c and n of every output (R179). -/
def addDraw (sg : Int) (counts : List (Int × Nat)) (ts : List Int) : List (Int × Nat) :=
  (counts.zip ts).map fun p => (p.1.1 + sg * p.2, p.1.2 + p.2.natAbs)

/-- The draws of one tick (R189): the words of the generators, then each draw's strips and counts. What `env` says meets the first
strip. -/
def State.reconDraws (s : State) (n : Nat) (j : RecJob) (env : Env) : State × Except Issue RecJob :=
  if j.total = 0 then (s, .ok j)
  else
    let r := (List.range j.ng).foldl (fun (a : StCore × List Nat) k =>
      let d := a.1.draw (j.gb + k)
      (d.1, a.2 ++ [d.2.toNat % 2 ^ 32, d.2.toNat / 2 ^ 32])) (s.core n, [])
    let s := s.modCore n fun _ => r.1.count .recDraws j.par.perTick
    let ws := r.2.take j.par.perTick
    stepsOver ((List.range ws.length).zip ws) (s, .ok j) fun s j w =>
      let i := j.index w.2
      let q := s.reconRow n j.par i (if w.1 = 0 then env else Env.clean)
      (q.1, q.2.map fun ts => { j with counts := addDraw (j.signAt i) j.counts ts })

/-! ### Estimate, spread and decision (R182, R184) -/

/-- |c| or n over L as an LNS16 word: the table's logarithm less log₂ L. -/
def logOver (p : Param) (half : Bool) (neg : Bool) (k : Nat) : Lns × FmtEv :=
  lnsOf neg ((if half then logTab k / 2 else logTab k) - 256 * p.log2l)

/-- ŷ (R182): the product is formed as (W × S1) × (c / L), which decides where it saturates (DESIGN CHOICE, log entry 124). -/
def estimate (p : Param) (w s1 : Lns) (c : Int) : Lns × FmtEv :=
  if c = 0 ∨ lnsIsZero s1 then (lnsZero, {})
  else
    let a := lnsMul w s1
    let k := logOver p false (decide (c < 0)) c.natAbs
    let b := lnsMul a.1 k.1
    (b.1, (a.2.add k.2).add b.2)

/-- σ (R182), in the same order. -/
def spread (p : Param) (w s1 : Lns) (h : Nat) : Lns × FmtEv :=
  if lnsIsZero s1 then (lnsZero, {})
  else
    let a := lnsMul (if lnsIsZero w then lnsZero else w &&& 0x7FFF#16) s1
    let k := logOver p true false (max h 1)
    let b := lnsMul a.1 k.1
    (b.1, (a.2.add k.2).add b.2)

/-- The guard multiplier g = GUARD / 16 as a word (R184). -/
def guardWord (p : Param) : Lns := if p.guard = 0 then lnsZero else lnsMk false (logTab p.guard - 1024)

/-- |y| of a word. -/
def lnsAbs (y : Lns) : Lns := if lnsIsZero y then lnsZero else y &&& 0x7FFF#16

/-- Entry `j` of a table of LNS16 words in the scratchpad (R186). -/
def Station.tabWord (x : Station) (a j : Nat) : Lns := BitVec.ofNat 16 (le (x.sbytes (a + 2 * j) 2) 0 2)

/-- θj and Wj (R182, R184). -/
def Station.theta (x : Station) (p : Param) (j : Nat) : Lns := if p.tt then x.tabWord p.ttab j else p.theta
def Station.wscale (x : Station) (p : Param) (j : Nat) : Lns := if p.wt then x.tabWord p.wtab j else 0x0000#16

/-- The largest word by value of a list that is not empty. -/
def lnsMax : List Lns → Lns
  | [] => lnsZero
  | a :: r => r.foldl (fun m x => if lnsGe m x then m else x) a

/-- The outputs of group `g` of a job with their estimates and spreads (R182), the scale table read now. -/
def Station.estimates (x : Station) (j : RecJob) (g : Nat) : List (Nat × (Lns × FmtEv) × (Lns × FmtEv)) :=
  let p := j.par
  (((List.range p.n).zip j.counts).drop (512 * g)).take 512 |>.map fun o =>
    (o.1, estimate p (x.wscale p o.1) j.s1 o.2.1, spread p (x.wscale p o.1) j.s1 o.2.2)

/-- The decision for group `g` of a job against M (R184): for each output whether it is skipped, and the flags raised. -/
def Station.decideGroup (x : Station) (j : RecJob) (g : Nat) (m : Lns) : List Bool × FmtEv :=
  let p := j.par
  let rows := (x.estimates j g).map fun y =>
    let gs := lnsMul (guardWord p) y.2.2.1
    let v := lnsAdd (if p.mode = 1 then lnsAbs y.2.1.1 else y.2.1.1) gs.1
    let th := if p.mode = 2 then lnsSub m p.theta else (x.theta p y.1, {})
    let kept := p.mode = 2 ∧ (y.1 < p.first ∨ p.n ≤ y.1 + p.lastn)
    (decide (¬ kept) && !lnsGe v.1 th.1, ((y.2.1.2.add y.2.2.2).add gs.2).add (v.2.add th.2))
  (rows.map (·.1), rows.foldl (fun e r => e.add r.2) {})

/-- M of a job, the largest estimate seen. -/
def RecJob.most (j : RecJob) : Lns := lnsMax j.top

/-- One decision tick of a job (R190): 512 outputs with the tables as they stand in this tick; in MODE 2 the first G ticks find M. -/
def Station.decideTick (x : Station) (j : RecJob) : RecJob × FmtEv :=
  let g := j.par.groups
  if j.par.mode = 2 ∧ j.decs < g then
    ({ j with decs := j.decs + 1, top := j.top ++ [lnsMax ((x.estimates j j.decs).map fun y => y.2.1.1)] }, {})
  else
    let d := x.decideGroup j (if j.par.mode = 2 then j.decs - g else j.decs) j.most
    ({ j with decs := j.decs + 1, skips := j.skips ++ d.1 }, d.2)

/-- The remaining decision ticks of a job. -/
def Station.decideRest (x : Station) : Nat → RecJob → RecJob × FmtEv
  | 0, j => (j, {})
  | k + 1, j =>
    if j.par.decTicks ≤ j.decs then (j, {})
    else
      let a := x.decideTick j
      let b := x.decideRest k a.1
      (b.1, a.2.add b.2)

/-- M as the record of a job holds it (R191). -/
def RecJob.recordM (j : RecJob) : Lns := if j.par.mode = 2 then j.most else lnsZero

/-- The bytes of a record (R191). -/
def recordBytes (skips : List Bool) (m : Lns) : List Byte :=
  let sk := fit false 4096 skips
  let byte (k : Nat) : Nat := ((List.range 8).zip ((sk.drop (8 * k)).take 8)).foldl (fun a b => a + b2n b.2 * 2 ^ b.1) 0
  ((List.range 512).map fun k => BitVec.ofNat 8 (byte k)) ++ natLe 2 m.toNat ++ natLe 2 (skips.filter id).length
    ++ List.replicate 60 0

/-- The union register after a record: the outputs computed are set (R191). -/
def unionWith (u : BitVec 4096) (skips : List Bool) : BitVec 4096 :=
  ((List.range skips.length).zip skips).foldl (fun u b => if b.2 then u else u ||| (1#4096 <<< b.1)) u

/-! ### Lists (R192) -/

/-- The outputs of the union, ascending. -/
def unionList (u : BitVec 4096) (n : Nat) : List Nat := (List.range n).filter fun j => u.getLsbD j

def gatherListBytes (p : Param) (js : List Nat) : List Byte :=
  natLe 2 js.length ++ natLe 2 (ceilDiv js.length 512) ++ js.flatMap fun j => natLe 2 (p.ofs + j)

/-- The tokens that the draws select (R189, R192). -/
def auditTokens (p : Param) (ntok : Nat) (ws : List (BitVec 64)) : List Nat :=
  if p.audlog = 0 then []
  else (List.range ntok).filter fun k => (ws.getD (k / 4) 0).toNat / 2 ^ (16 * (k % 4)) % 2 ^ p.audlog == 0

def auditListBytes (ts : List Nat) : List Byte := natLe 1 ts.length ++ ts.flatMap fun k => natLe 1 k

/-- Whether Recon is running an operation (R215); an RCHK takes 2 ticks (R203). -/
def StCore.recBusy (c : StCore) : Bool := !c.recs.isEmpty || !c.fins.isEmpty || decide (c.tick < c.recChk)

end Sys2Proof.Machine
end

