-- ==== Sys2Proof/Machine/Station.lean ====
section
/-!
DEFINITION. The Station's frame: which events of its units are due, the opening of a bundle, holds, stalls and freezes
(R152, R247, R251), re-runs (R254, R256, R257), and the close of a bundle with the checks that concern the whole tick
(R66, R223, R227, R229, R233) and the program's next bundle (R236, R237).
-/

namespace Sys2Proof.Machine

/-! ### What a hold lets go on -/

/-- Whether the drain unit, Recon, the pack stages and the ternarisation unit go on during a wait: the unit
that the held bundle waits for does. -/
def Wait.drainGoes (w : Wait) : Bool := w == .drainBusy || w == .step
def Wait.reconGoes (w : Wait) : Bool := w == .recon || w == .step
def Wait.packGoes (w : Wait) : Bool := w == .pack || w == .step
def Wait.ternGoes (w : Wait) : Bool := w == .tern || w == .step

/-- Whether a port's unit goes on during a wait: the array always (R152), the DMA engine's banks are held and not walked. -/
def Wait.portGoes (w : Wait) (port : Nat) : Bool :=
  if port = 0 then true
  else if port = 1 then w.loaderGoes
  else if port = 2 then w.drainGoes
  else if port ≤ 6 then w.packGoes || w.ternGoes
  else if port = 9 then w.reconGoes
  else false

/-- Whether a wait is a freeze for late data (R83, R242, R248, R254), which ends with the data's arrival. -/
def Wait.isFreeze : Wait → Bool
  | .late => true
  | .dwait _ => true
  | _ => false

/-- After END the array finishes without a bundle; a tick beyond every tick of a task stands for that. -/
def endless : Nat := 2 ^ 63

/-- Whether a unit goes on without a bundle: after END, and in a hold whose wait lets it. -/
def Station.going (x : Station) (goes : Wait → Bool) : Bool :=
  x.core.task.ended || (x.held.map fun h => goes h.why).getD false

/-- The tick of the earliest event of the units that go on without a bundle: there the events take place in the order of their ticks. -/
def Station.nextDue (x : Station) : Nat :=
  let c := x.core
  ((if x.going Wait.loaderGoes then (c.load.toList.filter fun l => decide (l.done < l.len)).map (·.next) else [])
    ++ (if x.going Wait.drainGoes then (c.drains.take 1).map (·.due) else [])
    ++ (if x.going Wait.packGoes then c.packs.map (·.due) else [])
    ++ (if x.going Wait.reconGoes then (c.recs.take 1).map (·.due) ++ (c.fins.take 1).map (·.due) else [])).foldl min endless

/-- The program ticks before which a unit's events may take place: those of a hold in which it goes on, all after END. -/
def Station.limit (x : Station) (goes : Wait → Bool) : Nat :=
  if x.core.task.ended then endless
  else if x.going goes then x.core.tick + (x.held.map (·.need)).getD 0
  else x.core.tick

/-- The array tick at which the next bundle issues as far as the array is concerned (R152): after the hold, if any. -/
def Station.horizon (x : Station) : Nat :=
  if x.core.task.ended then endless else x.core.atick + ((x.held.map (·.need)).getD 0)

/-! ### Events that are due -/

def Brun.tp (b : Brun) : Nat := max b.b 4
/-- P, the number of passes of a BRUN's tile (R110). -/
def StCore.passCount (c : StCore) (b : Brun) : Nat := (c.bank b.bank).passes.length
/-- The tick after which a BRUN's window is closed (R123, R150). -/
def Brun.lastTick (b : Brun) : Nat := b.u + 11 + b.pe * b.tp + b.overrun

/-- The array tick in which the next vector of a BRUN's pass issues (R123). -/
def Brun.vecTick (b : Brun) : Nat := b.u + 4 + b.pass * b.tp + b.vec

/-- The array tick that a BRUN's passes have reached: an overrun freeze that is due comes first (R124). -/
def Station.reach (x : Station) (b : Brun) : Nat :=
  if !x.core.task.ended && !b.froze && decide (b.pe < x.core.passCount b) then min x.horizon (b.u + b.pe * b.tp - 1)
  else x.horizon

/-- The first BRUN whose next vector is due (R123). With P = 0 there is one pass that only opens the slots (R120, R124). -/
def Station.duePass (x : Station) : Option Brun :=
  x.core.bruns.find? fun b => decide (b.pass < max 1 (x.core.passCount b) ∧ b.vecTick ≤ x.reach b)

/-- The BRUN whose overrun freeze is due (R124). -/
def Station.dueOverrun (x : Station) : Option Brun :=
  if x.core.task.ended then none
  else x.core.bruns.find? fun b => !b.froze && decide (b.pe < x.core.passCount b ∧ b.u + b.pe * b.tp ≤ x.horizon)

/-- The BRUN whose window is over (R150). -/
def Station.dueClose (x : Station) : Option Brun :=
  x.core.bruns.find? fun b => decide (b.lastTick < x.horizon) && decide (max 1 (x.core.passCount b) ≤ b.pass)
    && x.core.tree.all fun q => q.tile != b.tile

/-- Whether the oldest product of the tree is due (R89): its stage u + 8 is past, or phase 1 of a replay empties the
tree. -/
def Station.dueSum (x : Station) : Bool :=
  match x.core.tree with
  | [] => false
  | p :: _ =>
    match x.replay with
    | some r => decide (p.u ≤ r.detect)
    | none => decide (p.u + 8 < x.horizon)

/-- The load whose next tick is due (R82, R116): a load tick is taken before the bundle of its program tick issues, so that late bytes
freeze the Station before that bundle (R83); in a hold in which the loader goes on, within the hold. -/
def Station.dueLoad (x : Station) : Option Load :=
  match x.core.load with
  | some l =>
    let t := if x.going Wait.loaderGoes then min (x.limit Wait.loaderGoes - 1) x.nextDue else x.core.tick
    if l.fault.isNone && decide (l.done < l.len) && decide (l.next ≤ t) then some l else none
  | none => none

/-- The program tick that a unit has reached, when it goes on during the waits of `goes`. A load's tick comes before the other
events of its tick. -/
def Station.unitTick (x : Station) (goes : Wait → Bool) : Nat :=
  if x.going goes then (if x.dueLoad.isSome then 0 else min (x.limit goes) (x.nextDue + 1)) else x.core.tick

def firstDue (t due : Nat) : Bool := decide (due < t)

def Station.dueDrain (x : Station) : Option DrainJob :=
  match x.core.drains with
  | j :: _ => if firstDue (x.unitTick Wait.drainGoes) j.due then some j else none
  | [] => none

def Station.duePack (x : Station) (e : Nat) : Option PackJob :=
  x.core.packs.find? fun j => j.engine == e && firstDue (x.unitTick Wait.packGoes) j.due

def Station.dueRec (x : Station) : Option RecJob :=
  match x.core.recs with
  | j :: _ => if firstDue (x.unitTick Wait.reconGoes) j.due then some j else none
  | [] => none

def Station.dueFin (x : Station) : Option FinJob :=
  match x.core.fins with
  | j :: _ => if firstDue (x.unitTick Wait.reconGoes) j.due then some j else none
  | [] => none

/-- Whether some event must happen before the next bundle issues. -/
def Station.overdue (x : Station) : Bool :=
  x.replay.isSome || !x.queued.isEmpty || x.duePass.isSome || x.dueOverrun.isSome || x.dueClose.isSome || x.dueSum
    || x.dueLoad.isSome || x.dueDrain.isSome || (List.range 4).any (fun e => (x.duePack e).isSome) || x.dueRec.isSome
    || x.dueFin.isSome

/-- Whether a bundle may open: the Station runs, its program has not ended, it waits for nothing. -/
def Station.ready (x : Station) : Bool :=
  x.mode == .running && !x.core.task.ended && x.held.isNone && x.snap.isNone && !x.overdue

/-- Whether events of the Station's units may happen: no bundle is open. -/
def Station.between (x : Station) : Bool := x.mode == .running && x.snap.isNone

/-! ### Re-runs (R256, R257) -/

/-- A read found a check error: the bundle, if one is open, writes nothing, and the step is run again, or the task ends
where R257 refuses that. -/
def State.beginRerun (s : State) (n word : Nat) : State :=
  let x := s.stn n
  let c0 := match x.snap with
    | some c0 => { c0 with ctr := c0.keepChecks x.core }
    | none => x.core
  let s := s.modStn n fun x => { x with core := c0, snap := none, ops := [], doubt := none, rerun := none, held := none }
  let stop (st : Status) : State := s.endTask n { st := st, addr := scrAddr word } c0.tick
  if c0.saved.dred then stop 0x0360#16
  else if c0.saved.failed.contains word ∨ 2 ≤ c0.saved.reruns then stop 0x0361#16
  else
    s.modStn n fun x =>
      let c := c0.count .reruns
      { x with
        mode := .rerun, replay := none, queued := [],
        core := { c with
          task := { c.task with reruns := satAdd 0xFF c.task.reruns 1 },
          saved := { c.saved with reruns := c.saved.reruns + 1, failed := word :: c.saved.failed } } }

/-- What STEP saves (R254): the state at the start of its tick. -/
def StCore.save (c : StCore) : Saved :=
  { pc := c.pc, loops := c.loops, scalars := c.scalars, streams := c.streams,
    metas := (List.range 64).map fun k => (c.slot k).meta, tick := c.tick, reruns := 0, failed := [], dred := false }

/-- What a STEP saves: a STEP that a re-run issues again, at the program tick at which its step began, keeps the re-runs made and the words
that have failed (R256, R257). -/
def StCore.newStep (c : StCore) : Saved :=
  if c.saved.tick = c.tick then { c.save with reruns := c.saved.reruns, failed := c.saved.failed } else c.save

/-- Phase 4 of a re-run: the saved state is put back (R256). -/
def StCore.restore (c : StCore) : StCore :=
  let v := c.saved
  let c := ((List.range 64).zip v.metas).foldl (fun (c : StCore) p => c.setSlot p.1 ((c.slot p.1).setMeta p.2)) c
  { c with task := { c.task with ended := false }, pc := v.pc, loops := v.loops, scalars := v.scalars, streams := v.streams, tick := v.tick,
           plane0 := .empty, plane1 := .empty, bank0 := .empty, bank1 := .empty, load := none, bruns := [], tree := [],
           vregs := [], vscale := [], pend := [], moved := [], spw := [], accs := [], drains := [], fills := [], packs := [],
           terns := [], strips := [], recs := [], fins := [], union := 0, pblk := none, recFree := 0, recVisible := 0, recChk := 0,
           drainFree := 0, ternFree := 0, dmas := [], gathers := [] }

/-! ### The accesses and draws of a tick -/

/-- The bytes that the block write of a drain job touches in the scratchpad: address and length. -/
def StCore.drainTarget (c : StCore) (j : DrainJob) : Option (Handle × Nat) :=
  let cur := c.stream (8 + j.ostr)
  let r := if srKind cur = srKind j.reg ∧ srHidx cur = srHidx j.reg then cur else j.reg
  (c.handleOf r).map fun h => (h, srPos r)

/-- The scratchpad accesses that block, record, list and strip writes and the decision's tables make in tick `t`: port, address,
length (R190, R192, R222). -/
def StCore.writesAt (c : StCore) (t : Nat) : List (Nat × Nat × Nat) :=
  (c.drains.filterMap fun j =>
    if j.due = t ∧ j.kind = .drain then
      match c.drainTarget j with
      | some (h, p) => if h.scratch then some (2, h.blockAt p, burst j.w) else none
      | none => none
    else none)
  ++ (c.packs.filterMap fun j => if j.due = t then some (3 + j.engine, j.addr, burst j.w) else none)
  ++ (c.strips.filterMap fun j => if j.due = t then some (3 + j.engine, j.addr, j.bytes.length) else none)
  ++ (c.recs.flatMap fun j =>
    (if j.due = t then [(9, j.par.reca + 576 * j.tok, 576)] else [])
    ++ if j.dec0 ≤ t ∧ t < j.due then
        let g := j.decs % j.par.groups
        let len := 2 * min 512 (j.par.n - 512 * g)
        (if j.par.tt ∧ j.par.mode ≠ 2 then [(9, j.par.ttab + 1024 * g, len)] else [])
          ++ if j.par.wt then [(9, j.par.wtab + 1024 * g, len)] else []
      else [])
  ++ c.fins.filterMap fun j =>
    if j.due = t then some (9, j.par.alista, (auditListBytes (auditTokens j.par j.ntok j.words)).length) else none

/-- The drawing slots of tick `t` with their first generator and number (R66), for the units that go on. -/
def StCore.drawers (c : StCore) (w : Option Wait) (t : Nat) : List (Nat × Nat × Nat) :=
  let goes (f : Wait → Bool) : Bool := (w.map f).getD true
  (if goes Wait.drainGoes then c.drains.filterMap fun j => if j.first ≤ t ∧ t < j.due then some (1, j.gb, j.ng) else none else [])
  ++ (if goes Wait.reconGoes then
      (c.recs.filterMap fun j => if j.draw0 ≤ t ∧ t < j.dec0 ∧ j.total ≠ 0 then some (2, j.gb, j.ng) else none)
      ++ c.fins.filterMap fun j =>
        if j.issue ≤ t ∧ j.words.length < ceilDiv j.ntok 4 ∧ j.par.audlog ≠ 0 then some (2, j.ga, 1) else none
    else [])
  ++ (if goes Wait.packGoes then
      c.packs.filterMap fun j => if j.first ≤ t ∧ t < j.due then some (3 + j.engine, j.gb, j.ng) else none else [])
  ++ (if goes Wait.ternGoes then
      c.terns.filterMap fun j => if j.first ≤ t ∧ t ≤ j.last then some (3 + j.engine, j.gb, j.ng) else none else [])

/-- The slots that draw generator `g`. -/
def drawersOf (ds : List (Nat × Nat × Nat)) (g : Nat) : List Nat :=
  (ds.filter fun d => decide (d.2.1 ≤ g ∧ g < d.2.1 + d.2.2)).map (·.1)

/-- The lowest generator that two slots draw in a tick, with the two slots. -/
def drawConflict (ds : List (Nat × Nat × Nat)) : Option (Nat × Nat × Nat) :=
  (List.range 64).findSome? fun g =>
    match drawersOf ds g with
    | a :: b :: _ => some (g, a, b)
    | _ => none

/-- The dither of the drain unit in tick `t` (slot 1). -/
def StCore.drainDither (c : StCore) (t : Nat) : StCore :=
  c.drains.foldl (fun (c : StCore) j =>
    if j.first ≤ t ∧ t < j.due then
      let r := drawDither j.gb j.ng 1 c
      { r.1 with drains := r.1.drains.map fun k => if k = j then { k with words := k.words ++ r.2 } else k }
    else c) c

/-- The audit selection's draws in tick `t` (slot 2). -/
def StCore.auditDraws (c : StCore) (t : Nat) : StCore :=
  c.fins.foldl (fun (c : StCore) j =>
    if j.issue ≤ t ∧ j.words.length < ceilDiv j.ntok 4 ∧ j.par.audlog ≠ 0 then
      let r := c.draw j.ga
      { r.1 with fins := r.1.fins.map fun k => if k = j then { k with words := k.words ++ [r.2] } else k }
    else c) c

/-- The dither of vector engine `e` in tick `t` (slot 3 + e): its pack stage's and the ternarisation unit's. -/
def StCore.engineDither (c : StCore) (pack tern : Bool) (e t : Nat) : StCore :=
  let c := if !pack then c else c.packs.foldl (fun (c : StCore) j =>
    if j.engine = e ∧ j.first ≤ t ∧ t < j.due then
      let r := drawDither j.gb j.ng 1 c
      { r.1 with packs := r.1.packs.map fun k => if k = j then { k with words := k.words ++ r.2 } else k }
    else c) c
  if !tern then c else c.terns.foldl (fun (c : StCore) j =>
    if j.engine = e ∧ j.first ≤ t ∧ t ≤ j.last then
      let r := drawDither j.gb j.ng 1 c
      { r.1 with terns := r.1.terns.map fun k => if k = j then { k with words := k.words ++ r.2 } else k }
    else c) c

/-- The input block that an RPRED or RSEL reads in a tick (R188, R190). -/
def State.reconBlock (s : State) (n : Nat) (j : RecJob) (k : Nat) (env : Env) : State × Except Issue RecJob :=
  match (s.core n).handleOf j.reg with
  | none => (s, .error (.stop s { st := 0x0765#16 }))
  | some h =>
    let r := s.readBlock n 9 h (srPos j.reg + k) env 3
    match r.2 with
    | .error e => (r.1, .error e)
    | .ok b =>
      let ins := j.ins ++ [(b.1.z, blockElems false b.1 b.2, b.1.es)]
      if ins.length < j.par.kb then (r.1, .ok { j with ins := ins })
      else
        let ms := magsOf ins
        let t := ms.sum
        let s1 := s1Of ins t h.scale
        (r.1.modCore n fun c => c.fmt s1.2, .ok { j with ins := ins, mags := ms, total := t, s1 := s1.1 })

/-- Whether Recon reads the Range for a job in program tick `t`: an input block or its strips. -/
def StCore.reconRange (c : StCore) (j : RecJob) (t : Nat) : Bool :=
  if j.ins.length < j.par.kb then decide (j.next ≤ t) && !(((c.handleOf j.reg).map (·.scratch)).getD true)
  else decide (j.draw0 ≤ t ∧ t < j.dec0) && !j.par.rs && j.total != 0

/-- What Recon does for a job in program tick `t`: an input block, the tick's draws, or 512 outputs decided. -/
def State.reconTick (s : State) (n : Nat) (j : RecJob) (t : Nat) (env : Env) : State × Except Issue RecJob :=
  if j.ins.length < j.par.kb then
    if j.next ≤ t then
      let r := s.reconBlock n j j.ins.length env
      (r.1, r.2.map fun k => { k with next := t + 1 })
    else (s, .ok j)
  else if j.draw0 ≤ t ∧ t < j.dec0 then s.reconDraws n j env
  else if j.dec0 ≤ t ∧ j.decs < j.par.decTicks then
    -- the tables' words are read and checked; the counts decide with them
    let g := j.decs % j.par.groups
    let len := 2 * min 512 (j.par.n - 512 * g)
    let a := s.checked n 9 ((if j.par.tt ∧ j.par.mode ≠ 2 then j.par.ttab else j.par.wtab) + 1024 * g) len
      (if (j.par.tt ∧ j.par.mode ≠ 2) ∨ j.par.wt then env else Env.clean) []
    match if (j.par.tt ∧ j.par.mode ≠ 2) ∨ j.par.wt then a else (s, .ok []) with
    | (s, .error e) => (s, .error e)
    | (s, .ok _) =>
      let d := (s.stn n).decideTick j
      (s.modCore n fun c => c.fmt d.2, .ok d.1)
  else (s, .ok j)

/-- Recon's tick for every job; what `env` says meets the first job's access. -/
def State.reconTicks (s : State) (n t : Nat) (env : Env) : State × Option Issue :=
  let js := (s.core n).recs
  let r := stepsOver ((List.range js.length).zip js) (s, .ok ()) fun s _ (p : Nat × RecJob) =>
    let r := s.reconTick n p.2 t (env.of p.1)
    match r.2 with
    | .error e => (r.1, .error e)
    | .ok j' => (r.1.modCore n fun c => { c with recs := c.recs.map fun k => if k = p.2 then j' else k }, .ok ())
  match r.2 with
  | .error e => (r.1, some e)
  | .ok _ => (r.1, none)

/-- MCOPY moves 512 B in the present tick (R248): the bytes are read and checked, and written at its end. -/
def State.copyTick (s : State) (n : Nat) : State × Option Issue :=
  let r := stepsOver ((s.core n).dmas.filter fun d => d.mop == 3 && !d.done && decide (d.moved < d.len)) (s, .ok ()) fun s _ (d : Dma) =>
    let len := min 512 (d.len - d.moved)
    let b := s.checked n 8 (d.spa + d.moved) len Env.clean ((s.stn n).sbytes (d.spa + d.moved) len)
    match b.2 with
    | .error e => (b.1, .error e)
    | .ok bs => (b.1.modCore n fun c =>
        { c with spw := c.spw ++ [(d.spb + d.moved, bs)],
                 dmas := c.dmas.map fun k => if k = d then { d with moved := d.moved + len } else k }, .ok ())
  match r.2 with
  | .error e => (r.1, some e)
  | .ok _ => (r.1, none)

/-! ### Bank conflicts (R223, R227 to R229) -/

/-- The first line of the test window in banks 24 to 31 (R223). -/
def windowLine : Nat := 6080

/-- The accesses of the present tick: the lines, each once for a port, whatever bytes of it the port takes. -/
def StCore.present (c : StCore) (w : Option Wait) (l : List Access) : List Access :=
  ((l.filter fun a => a.tick == c.portTick a.port && (w.map fun w => w.portGoes a.port).getD true).map fun a =>
    { a with addr := 0 }).eraseDups

/-- The first access of the present tick to the test window, by its address (R223, R288). -/
def StCore.windowTouch (c : StCore) (w : Option Wait) (l : List Access) : Option Nat :=
  (l.find? fun a => a.tick == c.portTick a.port && (w.map fun w => w.portGoes a.port).getD true
    && decide (24 ≤ a.bank ∧ windowLine ≤ a.line)).map (·.addr)

/-- Whether a port may occupy a bank (R226). -/
def Image.allows (im : Image) (bank port : Nat) : Bool := (im.port.getD bank 0) / 2 ^ port % 2 == 1

/-- The ports that occupy a bank, ascending; port 8 occupies the DMA-held banks. -/
def portsAt (l : List Access) (dma : List Nat) (bank : Nat) : List Nat :=
  (List.range 10).filter fun p => l.any (fun a => a.bank == bank && a.port == p) || (p == 8 && dma.contains bank)

/-- The conflict at the lowest conflicting bank: bank, kind and ports. In relaxed mode only kind 2 is one. -/
def bankConflict (im : Image) (relaxed : Bool) (l : List Access) (dma : List Nat) : Option (Nat × Nat × Nat × Nat) :=
  (List.range 32).findSome? fun b =>
    let ps := portsAt l dma b
    let bad := ps.find? fun p => !im.allows b p
    let two := ps.find? fun p => decide (2 ≤ (l.filter fun a => a.bank == b && a.port == p).length)
    match relaxed, ps, bad, two with
    | false, p :: q :: _, _, _ => some (b, 0, p, q)
    | _, _, some p, _ => some (b, 2, p, p)
    | false, _, none, some p => some (b, 1, p, p)
    | _, _, _, _ => none

/-- STN_CONFLICT_INFO (R261). -/
def conflictInfo (tick : Nat) (k : Nat × Nat × Nat × Nat) : BitVec 64 :=
  BitVec.ofNat 64 ((tick % 2 ^ 32) <<< 32 + k.1 <<< 27 + k.2.2.1 <<< 23 + k.2.2.2 <<< 19 + k.2.1 <<< 17)

/-- The ticks that relaxed arbitration adds: the most accesses of one bank, less one (R229). -/
def bankStalls (l : List Access) : Nat :=
  ((List.range 32).foldl (fun m b => max m (l.filter fun a => a.bank == b).length) 1) - 1

/-- The port that an arbiter of `n` requesters grants last when all of `ps` are served from pointer `p` on (R404). -/
def lastGranted (p n : Nat) (ps : List Nat) : Option Nat :=
  ((List.range n).map fun i => (p + i) % n).foldl (fun a q => if ps.contains q then some q else a) none

/-- The rotating pointers of the banks after the accesses of a tick (R404). -/
def Station.turnPointers (x : Station) (l : List Access) : Station :=
  { x with bankPtr := (List.range 32).foldl (fun t b =>
      match lastGranted (tget 0 t b) 10 ((l.filter fun a => a.bank == b).map (·.port)) with
      | some q => fput t b ((q + 1) % 10)
      | none => t) x.bankPtr }

/-! ### The program's next bundle (R236, R237) -/

/-- The bundle after the bundle at `last`, and the loops then open. -/
def afterBundle : List Loop → Nat → Nat × List Loop
  | [], last => (last + 1, [])
  | l :: r, last =>
    if last = l.pc + l.body then
      (if 1 < l.trips then (l.pc + 1, { l with trips := l.trips - 1 } :: r) else afterBundle r last)
    else (last + 1, l :: r)

/-! ### Closing a bundle -/

/-- Missing dither words of a job are drawn. -/
def StCore.finishDither (c : StCore) (gb ng total : Nat) (ws : List Nat) : StCore × List Nat :=
  let r := drawDither gb ng (ceilDiv (total - ws.length) (4 * ng)) c
  (r.1, ws ++ r.2)

/-- One lane of a VTERN (R361): the weight, its mask bit and its dither word. -/
def ternLane (tau w : Lns) (on : Bool) (r : Nat) : Lns :=
  let q := (lnsDiv (lnsAbs w) (lnsCanon tau)).1
  let m := if lnsIsZero q || lnsSign q then 0 else min 65536 (packMag (lnsL q) 0).toNat
  if on && decide (65536 ≤ m + r) then lnsMk (lnsSign w) 0 else lnsZero

/-- The delayed writes of units that are due by tick `t`: strips (R362), the sets of DFILLs (R170), VTERN results. -/
def State.lateUnits (s : State) (n t : Nat) : State :=
  let s := s.modStn n fun x =>
    (x.core.strips.filter fun j => decide (j.due ≤ t)).foldl (fun (x : Station) j => x.sput j.addr j.bytes) x
  s.modCore n fun c =>
    let c := (c.fills.filter fun f => decide (f.due ≤ t)).foldl (fun (c : StCore) f =>
      let x := c.slot f.slot
      let a : Tab Int := ((List.range 512).zip f.vals).foldl (fun (a : Tab Int) p => mset 0 a (2 * p.1) p.2) []
      c.setSlot f.slot ((x.setShadow a f.datum).setShadowScale f.scale)) c
    let c := (c.terns.filter fun j => decide (j.last + 1 ≤ t)).foldl (fun (c : StCore) j =>
      let d := c.finishDither j.gb j.ng 256 j.words
      d.1.land { due := t, dest := .vector j.engine j.vd, bits := 0,
                 vec := ((j.ws.zip (fit false 256 j.mask)).zip (fit 0 256 d.2)).map fun p =>
                   ternLane j.tau p.1.1 p.1.2 p.2 }) c
    { c with fills := c.fills.filter (fun f => decide (t < f.due)), strips := c.strips.filter (fun j => decide (t < j.due)),
             terns := c.terns.filter fun j => decide (t < j.last + 1) }

/-- Results and writes that take place at the end of a tick (R218, R222). -/
def State.endOfTick (s : State) (n : Nat) : State :=
  let s := s.modStn n fun x => (x.core.spw.foldl (fun (x : Station) w => x.sput w.1 w.2) x)
  let s := s.modCore n fun c =>
    (c.pend.filter fun p => decide (p.due ≤ c.tick)).foldl StCore.land
      { c with pend := c.pend.filter (fun p => decide (c.tick < p.due)), spw := [] }
  s.lateUnits n (s.core n).tick

/-- The registers that results reach at the end of the present tick: results of operations, VTERN's, and the stream registers that
operations, the drain unit's block writes and the loader move on. -/
def StCore.results (c : StCore) : List Dest :=
  ((c.pend.filter fun p => decide (p.due ≤ c.tick)).map (·.dest))
    ++ ((c.terns.filter fun j => decide (j.last + 1 ≤ c.tick)).map fun j => .vector j.engine j.vd)
    ++ (c.moved.eraseDups.map fun k => .stream k)
    ++ ((c.drains.filter fun j => j.due == c.tick).map fun j => .stream (8 + j.ostr))

/-- A register that two results reach in the present tick (R233). -/
def StCore.writeConflict (c : StCore) : Bool := c.results.length != c.results.eraseDups.length

/-- Cycles frozen for late data of the Range (R251); `gather` when the gather unit waits for them (R198). -/
def StCore.countLate (c : StCore) (cycles : Nat) (gather : Bool) : StCore :=
  let c := (c.count .frzTier cycles).count .recGatherFrz (if gather then cycles else 0)
  { c with task := { c.task with frzTier := satAdd 0xFFFFFFFF c.task.frzTier cycles } }

/-- The ticks for which a perturbation of scratchpad ports delays the accesses of a tick: a freeze as for late data (R527). -/
def State.portDelay (s : State) (n : Nat) (l : List Access) : Nat :=
  (s.dep.tperts.filter fun p => bits p.2.action.toNat 3 1 == 0 && l.any fun a => p.2.on 1 (16 * n + a.port)).foldl
    (fun m p => max m (bits p.2.action.toNat 19 12)) 0

/-- What the units that go on do in the present tick, of a bundle (`w` none) or of a wait: the draws in slot order, Recon, the copies,
and the checks over the tick's draws and banks (R66, R223, R227, R229). The result gives the ticks by which relaxed arbitration of
banks and of generators stalls the tick. -/
def State.unitTick (s : State) (n : Nat) (w : Option Wait) (env : Env) : Except Issue (State × Nat × Nat) :=
  let c := s.core n
  let rel := c.task.desc.relaxed
  let goes (f : Wait → Bool) : Bool := (w.map f).getD true
  let ds := c.drawers w c.tick
  match rel, drawConflict ds with
  | false, some k => .error (.stop s { st := 0x0710#16, idx := k.1, aux := 16 * k.2.1 + k.2.2 })
  | _, _ =>
    let s := (c.writesAt c.tick).foldl (fun (s : State) a =>
      if (w.map fun w => w.portGoes a.1).getD true then s.touch n a.1 a.2.1 a.2.2 else s) s
    let s := if goes Wait.drainGoes then s.modCore n fun c => c.drainDither c.tick else s
    let r := if goes Wait.reconGoes then s.reconTicks n c.tick env else (s, none)
    match r.2 with
    | some e => .error e
    | none =>
      let s := if goes Wait.reconGoes then r.1.modCore n fun c => c.auditDraws c.tick else r.1
      let s := s.modCore n fun c => (List.range 4).foldl (fun (c : StCore) e =>
        c.engineDither (goes Wait.packGoes) (goes Wait.ternGoes) e c.tick) c
      let q := if w.isNone then s.copyTick n else (s, none)
      match q.2 with
      | some e => .error e
      | none =>
        let s := q.1
        let c := s.core n
        let l := c.present w c.accs
        match if c.task.kat then none else c.windowTouch w c.accs with
        | some a => .error (.stop s { st := 0x0764#16, addr := scrAddr a })
        | none =>
          match bankConflict c.task.image rel l (c.dmas.flatMap (·.banks)).eraseDups with
          | some k => .error (.stop (s.modCore n fun c => { c with conflict := conflictInfo c.tick k }) { st := 0x0760#16 })
          | none =>
            let bs := if rel then bankStalls l else 0
            let gs := if rel then ((List.range 64).map fun g => (drawersOf ds g).length - 1).foldl max 0 else 0
            let s := s.modStn n fun x => x.turnPointers l
            let d := s.portDelay n l
            let s := if d = 0 then s else s.modCore n fun c => c.countLate d false
            .ok (s.modCore n fun c => { c with accs := c.accs.filter fun a =>
              !(w.map fun w => w.portGoes a.port).getD true || decide (c.portTick a.port < a.tick) }, bs, gs)

/-- The ticks that relaxed arbitration adds to a tick are schedule slips (R66, R229). -/
def StCore.countStalls (c : StCore) (bs gs : Nat) : StCore :=
  let c := (c.count .bankStall bs).count .slip (bs + gs)
  { c with task := { c.task with slip := satAdd 0xFFFFFFFF c.task.slip (bs + gs) } }

/-- A load that has taken its last tick is over at the end of that tick (R75, R82, R112). -/
def StCore.endLoad (c : StCore) : StCore :=
  match c.load with
  | some l => if l.fault.isNone && decide (l.len ≤ l.done ∧ l.next ≤ c.tick) then c.loadDone l else c
  | none => c

/-- The whole-tick part of closing a bundle: the checks over all its slots, the units' work and the end of the tick. -/
def State.closeTick (s : State) (n : Nat) (env : Env) : Issue :=
  if (s.core n).writeConflict then .stop s { st := 0x0763#16 }
  else
    match s.unitTick n none env with
    | .error e => e
    | .ok (s, bs, gs) =>
      let s := s.endOfTick n
      .ok (s.modCore n fun c =>
        let c := (if c.task.ended then c else c.count .run).countStalls bs gs
        ({ c with tick := c.tick + 1, atick := c.atick + 1 + bs + gs, moved := [] }).endLoad)

/-- One tick of a hold: what the units that go on do in it, their tick being the hold's beyond the program tick; relaxed stalls
in it are array ticks (R152, R229, R247). -/
def State.waitTick (s : State) (n : Nat) (h : Held) (env : Env) : Issue :=
  let c0 := s.core n
  let back (k : Nat) (s : State) : State := s.modCore n fun c => { c with tick := c0.tick, atick := c0.atick + k }
  match (s.modCore n fun c => { c with tick := c.tick + h.gone, atick := c.atick + h.gone }).unitTick n (some h.why) env with
  | .error e => e.mapState (back 0)
  | .ok (s, bs, gs) =>
    .ok ((back (bs + gs) s).modStn n fun x =>
      { x with core := x.core.countStalls bs gs, held := x.held.map fun h => { h with gone := h.gone + 1 } })

/-- The ticks through `due` pass without a bundle, after END or in a hold: units draw and read, results land, and the checks over a
whole tick are made; what stops the task and its tick otherwise. What `env` says meets Recon's first access. -/
def State.idleTo (s : State) (n due : Nat) (env : Env) : State × Option (Issue × Nat) :=
  let pass (k : Nat) (f : State → Env → Issue) : State × Option (Issue × Nat) :=
    (List.range k).foldl (fun (a : State × Option (Issue × Nat)) i =>
      match a.2 with
      | some _ => a
      | none =>
        match f a.1 (if i = 0 then env else Env.clean) with
        | .ok s => (s, none)
        | r => (a.1, some (r, (a.1.core n).tick))) (s, none)
  if (s.core n).task.ended then pass (due + 1 - (s.core n).tick) fun s e => s.closeTick n e
  else
    match (s.stn n).held with
    | some h =>
      if h.why.isFreeze then (s, none)
      else pass (min h.need (due + 1 - (s.core n).tick) - h.gone) fun s e =>
        match (s.stn n).held with
        | some h => s.waitTick n h e
        | none => .ok s
    | none => (s, none)

/-- What an outcome between bundles comes to. -/
def State.settleIssue (s : State) (n : Nat) (r : Issue) (tick : Nat) : State :=
  match r with
  | .ok s => s
  | .stop s f => s.endTask n f tick
  | .rerun s w => s.beginRerun n w
  | .wait _ _ => s

/-- What takes place in tick `due`: after END, and in a hold, the ticks up to it pass first. -/
def State.afterIdle (s : State) (n due : Nat) (env : Env) (k : State → State) : State :=
  let r := s.idleTo n due env
  match r.2 with
  | some (e, t) => r.1.settleIssue n e t
  | none => k r.1

/-- What a read of SECDED words by a Station's own event comes to: a corrected error is counted, an uncorrectable one ends the task
with 0x03E2 (R508). -/
def State.sramAt (s : State) (n : Nat) (env : Env) (k : State → State) : State :=
  match env.sram with
  | .good => k s
  | .corrected => k (s.modCount .sramCorrected)
  | .bad => s.endTask n { st := 0x03E2#16, unit := 5 } (s.core n).tick

/-- A fault that the loader has found ends the task; `tick` is the tick of the last bundle issued (R86). -/
def State.loaderFault (s : State) (n tick : Nat) : State :=
  match (s.core n).load with
  | some l => match l.fault with
    | some f => (s.modCore n fun c => c.emptyTarget l).endTask n
        { st := f.1, addr := f.2.1, idx := f.2.2, unit := l.unit f.1 } tick
    | none => s
  | none => s

/-- Closes the open bundle: `f` is what its control operation does to the program counter, the loops and the save. The
program stops after a bundle NB − 1 that is no END and that no open loop follows (R237). -/
def State.closeBundle (s : State) (n : Nat) (env : Env) (f : StCore → StCore) : Issue :=
  (s.closeTick n env).bind fun s =>
    let s := s.modStn n fun x => { x with core := f x.core, snap := none, ops := [] }
    let c := s.core n
    if (c.load.bind (·.fault)).isSome then .ok (s.loaderFault n (c.tick - 1))
    else if c.task.ended ∨ c.pc < c.task.image.nb then .ok s
    else .ok (s.endTask n { st := 0x0767#16 } (c.tick - 1))

/-- Whether Recon's bytes of the present tick, from the Range, are late: the bundle does not issue (R83, R193, R242). -/
def StCore.reconLate (c : StCore) (env : Env) : Bool := env.late && c.recs.any fun j => c.reconRange j c.tick

/-! ### The slots of a bundle -/

/-- The counters that the ticks of a hold or stall raise (R151, R153, R176, R251). -/
def StCore.countWait (c : StCore) (w : Wait) (k : Nat) : StCore :=
  let c := c.count .slip k
  let c := { c with task := { c.task with slip := satAdd 0xFFFFFFFF c.task.slip k } }
  let held (c : StCore) : StCore := { c with task := { c.task with holds := satAdd 0xFFFFFFFF c.task.holds k } }
  match w with
  | .drainHold => held (c.count .accDrainHold k)
  | .openHold => held (c.count .accOpenHold k)
  | .loader => c.count .arrPlaneStalls k
  | .plane => c.count .arrPlaneStalls k
  | .array => c.count .arrPlaneStalls k
  | _ => c

/-- The ticks of a BRUN's overrun freeze that a failure in array tick `a` cuts off are not counted (R124, R130). -/
def StCore.cutOverrun (c : StCore) (b : Brun) (a : Nat) : StCore :=
  let k := if b.froze then b.u + b.pe * b.tp + b.overrun - max a (b.u + b.pe * b.tp) - 1 else 0
  let less (t : Tab (BitVec 64)) (x : SC) : Tab (BitVec 64) := fput t x.num (ctrGet t x.num - BitVec.ofNat 64 k)
  { c with atick := c.atick - k, ctr := less (less c.ctr .bspOverrun) .slip,
           task := { c.task with bspOver := c.task.bspOver - k, slip := c.task.slip - k } }

/-- A BRUN's input port has failed in array tick `a`: no bundle issues from then on, its slots return to their state before
the BRUN, and the task ends at the bundle that does not issue (R130). -/
def State.stopBrun (s : State) (n : Nat) (f : Flt) (b : Brun) (a : Nat) : State :=
  let tile := b.tile
  let s := match (s.stn n).held with
    | some h => if h.why.isFreeze then s else s.modCore n fun c => c.countWait h.why (a + 1 - c.atick)
    | none => s
  let s := s.modCore n fun c =>
    let c := c.cutOverrun b a
    { c with tree := c.tree.filter fun p => p.tile != tile }
  let s := s.settle n ((s.core n).tree.length)
  let c := s.core n
  s.endTask n { f with drop := (List.range 64).filter fun k => (c.slot k).isOpen && (c.slot k).tile == tile } c.tick

/-- Whether an operation is a load, in the array slot or in the LOAD field (R234). -/
def isLoadOp : Instr → Bool
  | .aloadd .. => true
  | .aloadm .. => true
  | .bload .. => true
  | _ => false

/-- Whether slot operations begin with a load in the array slot (R234). -/
def loadFirst (l : List (Nat × Instr)) : Bool := l.any fun p => p.1 == 0 && isLoadOp p.2

/-- What an operation's issue comes to. A load in the array slot that fails a check after its encoding leaves its fault in
doubt until the LOAD field is known (R549); a check error waits for the CTL field, which may begin a step (R254, R256). -/
def State.applyIssue (s : State) (n k : Nat) (i : Instr) (r : Issue) : State :=
  match r with
  | .ok s' => if ((s'.stn n).snap).isNone then s' else s'.modStn n fun x => { x with ops := x.ops ++ [(k, i)] }
  | .stop s' f =>
    if k = 0 ∧ isLoadOp i ∧ f.st ≠ 0x0723#16 then s.modStn n fun x => { x with ops := x.ops ++ [(k, i)], doubt := some f }
    else s'.stopTask n f
  | .rerun s' w =>
    if k = 10 then s'.beginRerun n w
    else s'.modStn n fun x => { x with core := { (s.core n) with ctr := x.core.ctr }, ops := x.ops ++ [(k, i)], rerun := some w }
  | .wait why need =>
    s.modStn n fun x => { x with core := x.snap.getD x.core, snap := none, ops := [], rerun := none,
                                 held := some { why := why, need := need, ops := x.ops ++ [(k, i)] } }

/-- Opens a bundle. -/
def State.openBundle (s : State) (n : Nat) : State := s.modStn n fun x => { x with snap := some x.core, ops := [] }

/-- The slot number of the last operation of a list, counted from 1; 0 for none. -/
def nextSlot (l : List (Nat × Instr)) : Nat := ((l.getLast?).map fun p => p.1 + 1).getD 0

/-- What the accesses of a slot's operation meet. -/
def slotEnv : Instr → Env
  | .amac _ _ _ _ _ e => e
  | .aloadd _ _ _ _ _ _ _ e => e
  | .aloadm _ _ _ _ _ _ _ e => e
  | .bload _ _ _ _ _ _ _ e => e
  | .brun _ _ _ _ _ _ _ _ _ e => e
  | .dfill _ _ _ _ e => e
  | .rpred _ _ _ _ _ _ e => e
  | .rsel _ _ _ _ _ _ e => e
  | .rfin _ _ _ _ _ e => e
  | .rchk _ _ _ _ _ _ e => e
  | .vld _ _ _ _ _ _ e => e
  | .vmskld _ _ _ _ _ _ e => e
  | .vcvt _ _ _ _ _ _ e => e
  | .vtern _ _ _ _ _ _ e => e
  | .vtcnt _ _ _ _ _ _ e => e
  | .sld _ _ _ _ _ e => e
  | .sst _ _ _ _ _ e => e
  | .cnop _ _ _ e => e
  | .loop _ _ _ _ _ _ e => e
  | .step _ _ e => e
  | .dwait _ _ _ e => e
  | .endProg _ _ e => e
  | _ => Env.clean

/-- The SECDED words of a Station's structures that an operation reads: a corrected error is counted, an uncorrectable one stops the
task with 0x03E2 (R508). -/
def sramThen (env : Env) (k : State → Issue) (s : State) : Issue :=
  match env.sram with
  | .good => k s
  | .corrected => k (s.modCount .sramCorrected)
  | .bad => .stop s { st := 0x03E2#16, unit := 5 }

/-- A check error found in the bundle of a CTL operation: where the operation is a STEP that would issue, the bundle begins a step, and
the re-run is of that step (R254, R256). -/
def State.rerunAtCtl (s : State) (n : Nat) (i : Instr) (w : Nat) (r : Issue) : State :=
  match i, r with
  | .step .., .wait why need => s.applyIssue n 10 i (.wait why need)
  | .step .., .ok _ =>
    (s.modStn n fun x => { x with snap := x.snap.map fun c => { c with saved := c.newStep, stepped := true } }).beginRerun n w
  | _, _ => s.beginRerun n w

/-- A command that carries the operation of slot `k` of Station `n`'s current bundle: slots come in the order of R232, the
first opens the bundle, and a waiting bundle keeps what it is offered. A load in the LOAD field meets one in the array slot
before that one's wait or fault counts (R549); a fault in doubt counts at the CTL operation. -/
def slotOp (n k : Nat) (i : Instr) (body : State → Issue) (s : State) : State :=
  let x := s.stn n
  let run (s : State) : State := s.applyIssue n k i (sramThen (slotEnv i) body s)
  if x.mode ≠ .running ∨ x.core.task.ended then s
  else
    match x.held, x.snap with
    | some h, _ =>
      if h.ops ≠ [] ∧ nextSlot h.ops ≤ k then
        if k = 9 ∧ isLoadOp i ∧ loadFirst h.ops then
          run (s.modStn n fun x => { x with snap := some x.core, ops := h.ops, held := none })
        else s.modStn n fun x => { x with held := some { h with ops := h.ops ++ [(k, i)] } }
      else s
    | none, some _ =>
      if nextSlot x.ops ≤ k then
        match x.doubt, x.rerun with
        | none, none => run s
        | none, some w =>
          if k = 10 then s.rerunAtCtl n i w (body s) else s.modStn n fun x => { x with ops := x.ops ++ [(k, i)] }
        | some f, _ =>
          if k = 10 then s.stopTask n f
          else if k = 9 ∧ isLoadOp i then run s
          else s.modStn n fun x => { x with ops := x.ops ++ [(k, i)] }
      else s
    | none, none => if x.ready then run (s.openBundle n) else s

/-- The core as it stood at the start of the open bundle's tick (R233). -/
def Station.start (x : Station) : StCore := x.snap.getD x.core

/-- Faults where the bundle may wait in relaxed mode. -/
def busy (s : State) (n : Nat) (c : Bool) (st : Status) (unit : Nat) (why : Wait) (need : Nat) (k : Unit → Issue) : Issue :=
  if !c then k ()
  else if (s.core n).task.desc.relaxed then .wait why need else .stop s { st := st, unit := unit }

/-- Late bytes freeze the Station before the bundle (R83): only a read of the Range can be late. -/
def lateIf (env : Env) (scratch : Bool) (k : Unit → Issue) : Issue := if env.late && !scratch then .wait .late 0 else k ()

end Sys2Proof.Machine
end

