-- ==== Sys2Proof/Machine/Array.lean ====
section
/-!
DEFINITION. The array slot and the LOAD field: AMAC, ALOADD, ALOADM, BLOAD and BRUN with the checks of R549 in their
order, and the array's own events: load ticks, passes, the overrun freeze, the close of a window, column sums and
replays ("The Trit Array", "Bit-Serial Passes for Activation Products").
-/

namespace Sys2Proof.Machine

/-! ### Checks that several operations share -/

/-- Ticks until `t` from the present array tick. -/
def StCore.until (c : StCore) (t : Nat) : Nat := t - c.atick

/-- The ticks until no BRUN keeps the array from an AMAC or a strip load (R128). -/
def StCore.arrayFree (c : StCore) : Nat := c.bruns.foldl (fun m b => max m (c.until (b.u + 4 + b.pe * b.tp + b.overrun))) 0

/-- The ticks until a further BRUN may issue (R123). -/
def StCore.brunFree (c : StCore) : Nat := c.bruns.foldl (fun m b => max m (c.until (b.u + b.pe * b.tp + b.overrun))) 0

/-- The ticks until no open window names a bank (R128). -/
def StCore.bankFree (c : StCore) (bank : Nat) : Nat :=
  c.bruns.foldl (fun m b => if b.bank = bank then max m (c.until (b.lastTick + 1)) else m) 0

/-- The load ticks that a load has still to take. -/
def StCore.loadLeft (c : StCore) : Nat :=
  match c.load with
  | some l => l.next + (l.len - l.done) - c.tick
  | none => 0

/-- The ticks until the first product of a tile may name a slot (R151): 9 ticks after the last product of another tile
in it, for a product that would issue `after` ticks from now; the vectors that an open BRUN has yet to issue count too. -/
def StCore.openDeficit (c : StCore) (slot tile after : Nat) : Nat :=
  let t := c.tree.foldl (fun m p => if p.slot = slot ∧ p.tile ≠ tile then max m (p.u + 9 - (c.atick + after)) else m) 0
  c.bruns.foldl (fun m b =>
    let p := c.passCount b
    if b.s0 ≤ slot ∧ slot < b.s0 + b.b ∧ 0 < p then max m (b.u + 4 + (p - 1) * b.tp + (slot - b.s0) + 9 - (c.atick + after)) else m) t

/-- The handle of an input stream for the array (R107, R241): status 0x0765 when unbound, 0x0734 when it is not an
element-major packed-block handle. -/
def StCore.inputHandle (c : StCore) (r : BitVec 64) : Except Status Handle :=
  match c.handleOf r with
  | none => .error 0x0765#16
  | some h => if h.hkind = 0 ∧ h.plane = false then .ok h else .error 0x0734#16

/-! ### AMAC (R79, R88 to R91) -/

/-- The effect of an AMAC whose header is good: the swap, the slot, the product and the stream's advance. -/
def StCore.amacEffect (c : StCore) (slot : Nat) (swap : Bool) (istr : Nat) (reg : BitVec 64) (scale : Lns)
    (q es : List Int) : StCore :=
  let c := if swap then
      let p := b2n (!c.active)
      { c with active := !c.active, prevs := (c.tile :: c.prevs).take 9, tileId := c.tileId + 1,
               tile := { id := c.tileId + 1, plane := p, src := (c.plane p).src, amacs := [] } }
    else c
  let pl := c.activePlane
  let c := c.nameSlot slot c.tile.id .amac pl.merged (lnsMul scale pl.scale) c.atick
  let prod : Product := { slot := slot, u := c.atick, tile := c.tile.id, brun := false,
                          terms := macTerms pl q es }
  let mac : AmacRec := { slot := slot, istr := istr, reg := reg }
  let c := { c with
    tree := c.tree ++ [prod],
    tile := { c.tile with amacs := c.tile.amacs ++ [mac] } }
  (c.count .arrMac).advance istr 1

def amacBody (n slot : Nat) (swap : Bool) (istr rsv : Nat) (env : Env) (s : State) : Issue :=
  let c := s.core n
  let pl := c.plane (b2n (xor swap c.active))
  let reg := (s.stn n).start.stream istr
  failIf (decide (rsv ≠ 0)) s { st := 0x0723#16, unit := 0 } fun _ =>
  busy s n (decide (0 < c.arrayFree)) 0x0735#16 1 .array c.arrayFree fun _ =>
  failIf (pl.fill == .empty) s { st := 0x0720#16, unit := 0 } fun _ =>
  busy s n (pl.fill == .loading) 0x0721#16 0 .plane c.loadLeft fun _ =>
  match c.inputHandle reg with
  | .error st => .stop s { st := st, unit := if st = 0x0734#16 then 1 else 4 }
  | .ok h =>
    let tile := if swap then c.tileId + 1 else c.tile.id
    let hold := c.openDeficit slot tile 0
    if 0 < hold then .wait .openHold hold
    else
      lateIf env h.scratch fun _ =>
        let r := s.readBlock n 0 h (srPos reg) env 0
        match r.2 with
        | .error (.stop s' f) =>
          -- the slot keeps its contents from before the faulting tile, where that tile fills it (R68)
          .stop s' { f with drop := if f.unit = 0 ∧ (c.slot slot).tile = tile then [slot] else [], slot := slot }
        | .error e => e
        | .ok b => .ok (r.1.modCore n fun c => c.amacEffect slot swap istr reg h.scale (blockElems false b.1 b.2) b.1.es)

/-- AMAC (R88). -/
def amac (n slot : Nat) (swap : Bool) (istr : Nat) (rsv : Nat) (env : Env) (i : Instr) (s : State) : State :=
  slotOp n 0 i (amacBody n slot swap istr rsv env) s

/-- ANOP, or no load in the LOAD field (R79, R234); a reserved operation or field stops the task (R80, R113). -/
def anop (n : Nat) (inLoad : Bool) (code rsv : Nat) (i : Instr) (s : State) : State :=
  slotOp n (if inLoad then 9 else 0) i
    (fun s => failIf (decide (code ≠ 0 ∨ rsv ≠ 0)) s { st := 0x0723#16, unit := 0 } fun _ => .ok s) s

/-! ### Loads (R82 to R87, R107, R113, R116) -/

/-- Steps 5 and 6 of R549 for a load of strips (R107, R241). -/
def StCore.stripBind (c : StCore) (r : BitVec 64) (bytes : Nat) : Option Flt :=
  match srKind r with
  | 1 =>
    match c.handleOf r with
    | none => some { st := 0x0765#16 }
    | some h => if h.hkind = 2 then none else some { st := 0x0734#16, unit := 1 }
  | 2 => if srPos r % 128 ≠ 0 ∨ !kind2Ok c.task.image (srPos r) (min 1024 bytes) then some { st := 0x0765#16 } else none
  | 3 => none
  | _ => some { st := 0x0765#16 }

/-- The gather descriptor of a stream and the strips emitted so far: the first load that uses the stream reads and checks it (R197). -/
def State.gatherFor (s : State) (n wstr : Nat) (r : BitVec 64) (env : Env) : State × Except Issue (Option (Nat × Gather)) :=
  if srKind r ≠ 3 then (s, .ok none)
  else
    match (s.core n).gathers.find? fun p => p.1 == wstr with
    | some p => (s, .ok (some p.2))
    | none =>
      let a := srGaddr r * 32
      let bad (s : State) : State × Except Issue (Option (Nat × Gather)) :=
        (s, .error (.stop s { st := 0x0352#16, addr := scrAddr a, unit := 3 }))
      if !inScratch a 32 then bad s
      else
        let b := s.sread n 1 a 32 env
        match b.2 with
        | .error e => (b.1, .error e)
        | .ok bs =>
          match gatherOf bs with
          | none => bad b.1
          | some g => (b.1, .ok (some (0, g)))

/-- A load begins: its target becomes loading (R75, R81, R112). -/
def StCore.beginLoad (c : StCore) (ld : Load) : StCore :=
  let c := { c with loadId := ld.id, load := some ld, loads := fput c.loads ld.id ld,
                    gathers := match ld.gather with
                      | some g => fput c.gathers ld.wstr (ld.gpos + ld.n, g)
                      | none => c.gathers }
  match ld.kind with
  | .bits => c.setBank ld.target { fill := .loading, n := ld.n, pair := ld.pair, blocks := [], passes := [],
                                   scale := c.loadScale ld }
  | k => c.setPlane ld.target { fill := .loading, merged := k == .merged, blk := ld.blk, cols := [], src := ld.id,
                                scale := c.loadScale ld }

/-- The strips or blocks that a stream has advanced by after `j` load ticks (R241). -/
def Load.advanced (ld : Load) (pitch j : Nat) : Nat :=
  match ld.kind with
  | .bits =>
    let tot := if ld.pair then 2 * ld.n else ld.n
    if ld.len ≤ j then tot else (tickBlocks (bloadSize pitch ld.pair) tot j).1
  | k =>
    let strips := if ld.len ≤ j then ld.n else min ld.n (j * 1024 / k.size)
    if srKind ld.reg = 3 then 0 else strips * k.size

/-- A weight stream moves on with its load, unless the program has bound it anew meanwhile; in a hold no result can meet it. -/
def StCore.loadAdvance (c : StCore) (ld : Load) (hold : Bool) : StCore :=
  let p := ((c.handleOf ld.reg).map (·.pitch)).getD 1
  let a := ld.advanced p ld.done
  let b := ld.advanced p (ld.done + 1)
  if c.stream (4 + ld.wstr) = srAdvance ld.reg a ∧ a ≠ b then
    let c := c.setStream (4 + ld.wstr) (srAdvance ld.reg b)
    if hold then c else { c with moved := c.moved ++ [4 + ld.wstr] }
  else c

/-- Whether a load reads the scratchpad or the Range. -/
def StCore.loadScratch (c : StCore) (ld : Load) : Bool :=
  match ld.gather with
  | some g => g.scratch
  | none => ((c.handleOf ld.reg).map (·.scratch)).getD true

/-- Whether a Station is held by a bundle during whose wait the loader goes on. -/
def Station.loaderHold (x : Station) : Bool := (x.held.map fun h => h.why.loaderGoes).getD false

/-- A load takes a tick: it moves on, or keeps what its checks have found (R86). Of the accesses, 0 is the weight stream's, 1 the count
words'. -/
def State.loadStep (s : State) (n : Nat) (ld : Load) (env : Env) : Issue :=
  let r := s.loadTick n ld env
  match r.2 with
  | .error (.stop s f) =>
    .ok (s.modCore n fun c => (c.count .arrLoadTicks).putLoad { ld with fault := some (f.st, f.addr, f.idx) })
  | .error e => e
  | .ok _ =>
    .ok (r.1.modCore n fun c =>
      let c := (c.count .arrLoadTicks).loadAdvance ld (s.stn n).loaderHold
      { c with load := c.load.map fun l => { l with done := ld.done + 1, next := ld.next + 1 } })

/-- A load issues: it takes its first tick in the tick of its bundle (R82). A gather descriptor that fails its check is a fault of the
loader (R197); it is access 2. -/
def State.issueLoad (s : State) (n : Nat) (ld : Load) (env : Env) : Issue :=
  let g := s.gatherFor n ld.wstr ld.reg (env.of 2)
  match g.2 with
  | .error (.stop s f) => .ok (s.modCore n fun c => (c.beginLoad ld).putLoad { ld with fault := some (f.st, f.addr, 0) })
  | .error e => e
  | .ok d =>
    let ld := { ld with gather := d.map (·.2), gpos := (d.map (·.1)).getD 0 }
    lateIf env ((s.core n).loadScratch ld) fun _ => (g.1.modCore n fun c => c.beginLoad ld).loadStep n ld env

/-- Whether the array slot of the open bundle carries a load (R234). -/
def Station.loadInBundle (x : Station) : Bool := loadFirst x.ops

/-- The bytes at CNTA that an ALOADM's count table takes (R80). -/
def countTable (n : Nat) : Nat := ceilDiv (4 * n) 128 * 128

def stripLoadBody (n : Nat) (merged : Bool) (wstr cols : Nat) (blk : Bool) (cnta rsv : Nat) (env : Env) (s : State) : Issue :=
  let c := s.core n
  let kind : LoadKind := if merged then .merged else .dense
  let reg := (s.stn n).start.stream (4 + wstr)
  failIf (decide (rsv ≠ 0) || (!merged && (blk || decide (cnta ≠ 0)))
    || (merged && decide (scratchSize < cnta * 128 + countTable cols))) s { st := 0x0723#16, unit := 0 } fun _ =>
  failIf (s.stn n).loadInBundle s { st := 0x0722#16, unit := 0 } fun _ =>
  busy s n c.load.isSome 0x0722#16 0 .loader c.loadLeft fun _ =>
  busy s n (decide (0 < c.arrayFree)) 0x0735#16 1 .array c.arrayFree fun _ =>
  match c.stripBind reg (cols * kind.size) with
  | some f => .stop s f
  | none =>
    s.issueLoad n { Load.none with
      id := c.loadId + 1, kind := kind, n := cols, wstr := wstr, blk := blk, cnta := cnta, target := b2n (!c.active),
      next := c.tick, len := loadTicks kind cols, reg := reg } env

/-- ALOADD and ALOADM (R82, R84): in the array slot or the LOAD field. -/
def aload (n : Nat) (merged inLoad : Bool) (wstr cols : Nat) (blk : Bool) (cnta rsv : Nat) (env : Env) (i : Instr)
    (s : State) : State :=
  slotOp n (if inLoad then 9 else 0) i (stripLoadBody n merged wstr cols blk cnta rsv env) s

/-- BLOAD's checks of R549: a stream that R241 refuses comes before one of the wrong kind or order. The bytes of a KIND 2 stream, which has
no pitch, are counted as those of blocks of pitch 1. -/
def bloadBody (n wstr cols bank : Nat) (pair : Bool) (rsv : Nat) (env : Env) (s : State) : Issue :=
  let c := s.core n
  let reg := (s.stn n).start.stream (4 + wstr)
  failIf (decide (rsv ≠ 0)) s { st := 0x0723#16, unit := 0 } fun _ =>
  failIf (s.stn n).loadInBundle s { st := 0x0722#16, unit := 0 } fun _ =>
  busy s n c.load.isSome 0x0722#16 0 .loader c.loadLeft fun _ =>
  busy s n (decide (0 < c.bankFree bank)) 0x0732#16 1 .array (c.bankFree bank) fun _ =>
  match srKind reg, c.handleOf reg with
  | 1, some h =>
    if h.hkind ≠ 0 ∨ h.plane = false then .stop s { st := 0x0734#16, unit := 1 }
    else
      s.issueLoad n { Load.none with
        id := c.loadId + 1, kind := .bits, n := cols, wstr := wstr, pair := pair, target := bank, next := c.tick,
        len := bloadTicks h.pitch cols pair, reg := reg } env
  | 2, _ =>
    let bytes := min 1024 ((if pair then 2 * cols else cols) * bloadSize 1 pair)
    if srPos reg % 128 ≠ 0 ∨ !kind2Ok c.task.image (srPos reg) bytes then .stop s { st := 0x0765#16 }
    else .stop s { st := 0x0734#16, unit := 1 }
  | 3, _ => .stop s { st := 0x0734#16, unit := 1 }
  | _, _ => .stop s { st := 0x0765#16 }

/-- BLOAD (R113, R116): in the array slot or the LOAD field. -/
def bload (n : Nat) (inLoad : Bool) (wstr cols bank : Nat) (pair : Bool) (rsv : Nat) (env : Env) (i : Instr) (s : State) : State :=
  slotOp n (if inLoad then 9 else 0) i (bloadBody n wstr cols bank pair rsv env) s

/-! ### BRUN (R118 to R129) -/

/-- BRUN at its issue. It empties both cell planes even where P = 0 and no plane is transferred (DESIGN CHOICE, log entry 122: R129 says
that a BRUN overwrites both, R124 that nothing is transferred). -/
def brunBody (n s0 b bank : Nat) (add : Bool) (istr rsv pe : Nat) (env : Env) (s : State) : Issue :=
  let c := s.core n
  let reg := (s.stn n).start.stream istr
  let loading := match c.load with
    | some l => l.kind != .bits
    | none => false
  let bk := c.bank bank
  failIf (decide (rsv ≠ 0)) s { st := 0x0723#16, unit := 0 } fun _ =>
  failIf (decide (64 < s0 + b)) s { st := 0x0733#16, unit := 1 } fun _ =>
  busy s n (decide (0 < c.brunFree)) 0x0735#16 1 .array c.brunFree fun _ =>
  busy s n loading 0x0735#16 1 .loader c.loadLeft fun _ =>
  failIf (bk.fill == .empty) s { st := 0x0730#16, unit := 1 } fun _ =>
  busy s n (bk.fill == .loading) 0x0731#16 1 .plane c.loadLeft fun _ =>
  match c.inputHandle reg with
  | .error st => .stop s { st := st, unit := if st = 0x0734#16 then 1 else 4 }
  | .ok h =>
    let hold := (List.range b).foldl (fun m i => max m (c.openDeficit (s0 + i) (c.tileId + 1) (4 + i))) 0
    if 0 < hold then .wait .openHold hold
    else
      lateIf env h.scratch fun _ =>
        let r := s.readBlock n 0 h (srPos reg) { env with chk := 0, ce := false } 1
        match r.2 with
        | .error e => e
        | .ok _ =>
          -- the header check takes no bank: the port's banks are those of the vectors (R222)
          .ok (s.modCore n fun c =>
            let w : Brun := { tile := c.tileId + 1, u := c.atick, s0 := s0, b := b, bank := bank, add := add, istr := istr,
                              reg := reg, pe := pe, pass := 0, vec := 0, overrun := 0, froze := false }
            let c := { c with tileId := c.tileId + 1, plane0 := .empty, plane1 := .empty, bruns := c.bruns ++ [w] }
            c.advance istr b)

/-- BRUN (R118). -/
def brun (n s0 b bank : Nat) (add : Bool) (istr rsv pe : Nat) (env : Env) (i : Instr) (s : State) : State :=
  slotOp n 0 i (brunBody n s0 b bank add istr rsv pe env) s

/-! ### Load ticks (R82, R85, R86, R116, R117) -/

/-- The load takes its next tick, which is due; late bytes freeze the Station (R83). What its checks find ends the task after the
bundle of the tick, or at once where no bundle issues. -/
def State.takeLoadTick (s : State) (n : Nat) (env : Env) : State :=
  let x := s.stn n
  match x.between, x.dueLoad with
  | true, some ld =>
    if env.late && !x.core.loadScratch ld then
      (if x.held.isNone then s.modStn n fun x => { x with held := some { why := .late, need := 0, ops := [] } } else s)
    else
      match s.loadStep n ld env with
      | .rerun s w => s.beginRerun n w
      | .ok s => if x.loaderHold ∨ x.core.task.ended then s.loaderFault n (min ld.next x.core.tick) else s
      | _ => s
  | _, _ => s

/-- LOADER_TICK (R82, R85): after END the ticks before it pass first, and its own after it. -/
def loaderTick (n : Nat) (env : Env) (s : State) : State :=
  match (s.stn n).between, (s.stn n).dueLoad with
  | true, some ld =>
    s.sramAt n env fun s => s.afterIdle n (ld.next - 1) Env.clean fun s =>
      (s.takeLoadTick n env).afterIdle n ld.next Env.clean id
  | _, _ => s

/-! ### Passes (R110, R119 to R131) -/

/-- The accesses of a vector of a pass fall in its own array tick (R123). -/
def shiftAccs (old new : List Access) (u : Nat) : List Access :=
  old ++ (new.drop old.length).map fun a => { a with tick := u }

/-- The products of `m` vectors of a pass, from the next one on: each vector's block is read again, its header checked (R119);
a failure gives the vector and what it comes to. -/
def State.passVectors (s : State) (n : Nat) (b : Brun) (bk : Bank) (k m : Nat) (env : Env)
    : State × List Product × Option (Nat × Issue) :=
  let u0 := b.u + 4 + b.pass * b.tp
  ((List.range m).map (b.vec + ·)).foldl (fun (a : State × List Product × Option (Nat × Issue)) i =>
    match a.2.2 with
    | some _ => a
    | none =>
      match (a.1.core n).handleOf b.reg with
      | none => (a.1, a.2.1, some (i, .stop a.1 { st := 0x0765#16 }))
      | some h =>
        let r := a.1.readBlock n 0 h (srPos b.reg + i) (env.of (i - b.vec)) 1
        match r.2 with
        | .error e => (r.1, a.2.1, some (i, e))
        | .ok q =>
          let p : Product := { slot := b.s0 + i, u := u0 + i, tile := b.tile, brun := true,
                               terms := passTerms bk k (blockElems false q.1 q.2) q.1.es }
          (r.1.modCore n fun c => { c with accs := shiftAccs (a.1.core n).accs c.accs (u0 + i) }, a.2.1 ++ [p], none))
    (s, [], none)

def StCore.setBrun (c : StCore) (b : Brun) : StCore :=
  { c with bruns := c.bruns.map fun x => if x.tile = b.tile then b else x }

/-- The vectors of a BRUN's pass that are due: those whose array ticks have come (R123). -/
def Station.dueVectors (x : Station) (b : Brun) : Nat := min (b.b - b.vec) (x.reach b + 1 - b.vecTick)

/-- The column-passes that pass `k` of a tile gates (R111). -/
def Bank.gated (bk : Bank) (k : Nat) : Nat :=
  512 - ((List.range bk.n).filter fun i =>
    [i, bk.n + i].any fun m => (bk.blocks[m]?).any fun q => q.qs.any fun v => passTrit q.u q.w' k v != 0).length

/-- A BRUN that has issued `m` more vectors. -/
def Brun.issued (b : Brun) (m : Nat) : Brun :=
  if b.vec + m = b.b then { b with pass := b.pass + 1, vec := 0 } else { b with vec := b.vec + m }

/-- S × Sw of a BRUN (R122). -/
def StCore.brunScale (c : StCore) (b : Brun) : Lns × FmtEv :=
  lnsMul (((c.handleOf b.reg).map (·.scale)).getD 0) (c.bank b.bank).scale

/-- The slots of the next `m` vectors open in a BRUN's first pass (R147). -/
def StCore.openVectors (c : StCore) (b : Brun) (m : Nat) : StCore :=
  let pair := (c.bank b.bank).pair
  if b.pass ≠ 0 then c
  else ((List.range m).map (b.vec + ·)).foldl (fun (c : StCore) i =>
    c.nameSlot (b.s0 + i) b.tile (.brun b.add pair) pair (c.brunScale b) (b.u + 4 + i)) c

/-- The cell planes swap when a pass begins (R123). -/
def StCore.swapFor (c : StCore) (b : Brun) : StCore := if b.vec = 0 then { c with active := !c.active } else c

/-- The next pass of a BRUN issues the vectors whose ticks have come; with P = 0 the slots take only the effect of R120. -/
def State.issuePass (s : State) (n : Nat) (b : Brun) (env : Env) : State :=
  let x := s.stn n
  let c := x.core
  let bk := c.bank b.bank
  let m := x.dueVectors b
  match bk.passes[b.pass]? with
  | none => s.modCore n fun c => (c.openVectors b m).setBrun (b.issued m)
  | some k =>
    if env.late && !(((c.handleOf b.reg).map (·.scratch)).getD true) then
      (if x.held.isNone then s.modStn n fun x => { x with held := some { why := .late, need := 0, ops := [] } } else s)
    else
      let r := s.passVectors n b bk k m env
      match r.2.2 with
      | some (_, .rerun s w) => s.beginRerun n w
      | some (i, .stop s f) =>
        if f.st = 0x0362#16 then s.endTask n f c.tick
        else
          (s.modCore n fun c => (c.openVectors b (i - b.vec)).count .bspVector (i - b.vec)).stopBrun n f b
            (b.u + 4 + b.pass * b.tp + i)
      | _ =>
        r.1.modCore n fun c =>
          let c := (({ c with tree := c.tree ++ r.2.1 }.openVectors b m).swapFor b |>.setBrun (b.issued m)).count .bspVector m
          if b.vec + m = b.b then (c.count .bspPasses).count .bspGated (bk.gated k) else c

/-- BRUN_PASS (R123, R124). -/
def brunPass (n : Nat) (env : Env) (s : State) : State :=
  match (s.stn n).between, (s.stn n).duePass with
  | true, some b => s.sramAt n env fun s => s.issuePass n b env
  | _, _ => s

/-- BRUN_OVERRUN_FREEZE (R124): the array runs its extra passes while program time stands. -/
def brunOverrunFreeze (n : Nat) (s : State) : State :=
  let x := s.stn n
  match x.between, x.dueOverrun with
  | true, some b =>
    s.modCore n fun c =>
      let k := (c.passCount b - b.pe) * b.tp
      let c := ((c.setBrun { b with froze := true, overrun := k }).count .bspOverrun k).count .slip k
      { c with atick := c.atick + k,
               task := { c.task with bspOver := satAdd 0xFFFFFFFF c.task.bspOver k,
                                     slip := satAdd 0xFFFFFFFF c.task.slip k } }
  | _, _ => s

/-- BRUN_WINDOW_CLOSE (R129, R139, R140, R150): the slots of the BRUN close. A BRUN whose window is open when a fault ends its task is in none of
the pass counters (DESIGN CHOICE, log entry 108). -/
def brunWindowClose (n : Nat) (s : State) : State :=
  let x := s.stn n
  match x.between && x.replay.isNone && x.queued.isEmpty, x.dueClose with
  | true, some b =>
    s.modCore n fun c =>
      let p := c.passCount b
      let c := (List.range b.b).foldl (fun (c : StCore) i =>
        if (c.slot (b.s0 + i)).tile = b.tile then c.closeSlot (b.s0 + i) else c) c
      let c := ((c.count .bspTiles).count .bspDeclared b.pe).count .bspIdle ((b.pe - p) * b.tp)
      { c with bruns := c.bruns.filter fun y => y.tile != b.tile,
               task := { c.task with bspMax := max c.task.bspMax p, bspTotal := satAdd 0xFFFFFFFF c.task.bspTotal p,
                                     bspDecl := satAdd 0xFFFFFFFF c.task.bspDecl b.pe } }
  | _, _ => s

/-! ### Column sums and replays (R89, R93, R95, R146, R160) -/

/-- COLUMN_SUM_ADD (R89, R146): the oldest product of the tree reaches its slot; an overflow begins a replay, or waits for
the one in progress. -/
def columnSumAdd (n : Nat) (env : Env) (s : State) : State :=
  let x := s.stn n
  if x.between && x.dueSum then
    s.sramAt n env fun s =>
      let r := s.addOldest n
      match r.2 with
      | none => r.1
      | some rp =>
        r.1.modStn n fun x =>
          match x.replay with
          | none => { x with replay := some rp }
          | some _ => { x with queued := queueReplay x.queued rp }
  else s

/-- The next replay that waits begins (R95). -/
def Station.nextReplay (x : Station) : Station :=
  match x.queued with
  | [] => { x with replay := none }
  | q :: rest => { x with replay := some q, queued := rest }

/-- REPLAY_COMPLETE (R93, R95, R131, R160): the phases of one replay are over; the slot holds the sum, is replayed again,
or ends the task: at the last bundle issued, or for a block that fails in a BRUN's replay at the first bundle not issued (R130). -/
def replayComplete (n : Nat) (env : Env) (s : State) : State :=
  let x := s.stn n
  match x.between, x.replay with
  | true, some rp =>
    if (x.core.tree.any fun p => decide (p.u ≤ rp.detect)) || x.core.bruns.any fun b =>
        decide (b.pass < x.core.passCount b ∧ b.vecTick ≤ rp.detect) then s
    else
      s.sramAt n env fun s =>
        let r := s.doReplay n rp env
        let tick := (r.1.core n).tick
        match r.2 with
        | .again => r.1
        | .fault f => r.1.endTask n f (if rp.brun && f.unit == 1 then tick else tick - 1)
        | .rerun w => r.1.beginRerun n w
        | .done => r.1.modStn n Station.nextReplay
  | _, _ => s

/-! ### The meanings -/

def execAnop (n : Stn) (inLoad : Bool) (code : BitVec 4) (rsv : BitVec 36) (s : State) : Host.Outcome State Fault Refusal :=
  .next (anop n inLoad code.toNat rsv.toNat (.anop n inLoad code rsv) s)
def execAmac (n : Stn) (slot : BitVec 6) (swap : Bool) (istr : BitVec 2) (rsv : BitVec 27) (env : Env) (s : State)
    : Host.Outcome State Fault Refusal :=
  .next (amac n slot.toNat swap istr.toNat rsv.toNat env (.amac n slot swap istr rsv env) s)
def execAloadd (n : Stn) (inLoad : Bool) (wstr : BitVec 2) (nm1 : BitVec 9) (blk : Bool) (cnta : BitVec 18)
    (rsv : BitVec 6) (env : Env) (s : State) : Host.Outcome State Fault Refusal :=
  .next (aload n false inLoad wstr.toNat (nm1.toNat + 1) blk cnta.toNat rsv.toNat env
    (.aloadd n inLoad wstr nm1 blk cnta rsv env) s)
def execAloadm (n : Stn) (inLoad : Bool) (wstr : BitVec 2) (nm1 : BitVec 9) (blk : Bool) (cnta : BitVec 18)
    (rsv : BitVec 6) (env : Env) (s : State) : Host.Outcome State Fault Refusal :=
  .next (aload n true inLoad wstr.toNat (nm1.toNat + 1) blk cnta.toNat rsv.toNat env
    (.aloadm n inLoad wstr nm1 blk cnta rsv env) s)
def execBload (n : Stn) (inLoad : Bool) (wstr : BitVec 2) (nm1 : BitVec 9) (bank : Bool) (pair : Bool) (rsv : BitVec 23)
    (env : Env) (s : State) : Host.Outcome State Fault Refusal :=
  .next (bload n inLoad wstr.toNat (nm1.toNat + 1) (b2n bank) pair rsv.toNat env (.bload n inLoad wstr nm1 bank pair rsv env) s)
def execBrun (n : Stn) (slot bm1 : BitVec 6) (bank add : Bool) (istr : BitVec 2) (rsv19 : Bool) (pem1 : BitVec 3)
    (rsv : BitVec 16) (env : Env) (s : State) : Host.Outcome State Fault Refusal :=
  .next (brun n slot.toNat (bm1.toNat + 1) (b2n bank) add istr.toNat (rsv.toNat + b2n rsv19) (pem1.toNat + 1) env
    (.brun n slot bm1 bank add istr rsv19 pem1 rsv env) s)
def execLoaderTick (n : Stn) (env : Env) (s : State) : Host.Outcome State Fault Refusal := .next (loaderTick n env s)
def execBrunPass (n : Stn) (env : Env) (s : State) : Host.Outcome State Fault Refusal := .next (brunPass n env s)
def execBrunOverrunFreeze (n : Stn) (s : State) : Host.Outcome State Fault Refusal := .next (brunOverrunFreeze n s)
def execBrunWindowClose (n : Stn) (s : State) : Host.Outcome State Fault Refusal := .next (brunWindowClose n s)
def execColumnSumAdd (n : Stn) (env : Env) (s : State) : Host.Outcome State Fault Refusal := .next (columnSumAdd n env s)
def execReplayComplete (n : Stn) (env : Env) (s : State) : Host.Outcome State Fault Refusal := .next (replayComplete n env s)

end Sys2Proof.Machine
end

