-- ==== Sys2Proof/Machine/CairnOps.lean ====
section
/-!
DEFINITION. The histograms and extremes of the Cairn (R519, R520): samples accumulate in an open record of the buffer, whose body
holds them as R519 lays it out.
-/

namespace Sys2Proof.Machine

/-- Bytes put into a list at an offset. -/
def splice (o : Nat) (bs l : List Byte) : List Byte := l.take o ++ bs ++ l.drop (o + bs.length)

/-- LNS16 of n / d: the rounded base-2 logarithm of R52, for any positive ratio. -/
def lnsOfRatio (n d : Nat) : Lns :=
  if n = 0 ∨ d = 0 then lnsZero
  else
    let k : Int := (n ^ 512 * 2 ^ 32768 / d ^ 512).log2
    (lnsOf false ((k - 32768 + 1) / 2)).1

/-- The edges in a histogram's body. -/
def bodyEdges (b : List Byte) : List Lns := (List.range 15).map fun k => BitVec.ofNat 16 (le b (2 * k) 2)

/-- The bin of a value. -/
def binOf (es : List Lns) (x : Lns) : Nat := (es.takeWhile fun e => lnsGe x e).length

/-- A histogram record with `n` more samples of a value; FULL when a count saturates. -/
def CRec.sample (r : CRec) (hours : Nat) (x : Lns) (n : Nat) : CRec :=
  let o := 32 + 4 * binOf (bodyEdges r.body) x
  let k := le r.body o 4 + n
  { r with body := splice o (natLe 4 (min 0xFFFFFFFF k)) r.body, hLast := hours, flags := if 0xFFFFFFFF < k then r.flags ||| 8 else r.flags }

/-- An extremes record that meets a value at an hour and a power cycle. -/
def CRec.meet (r : CRec) (hours cycles : Nat) (v : Int) : CRec :=
  let new := natLe 4 (intBits 32 v) ++ natLe 4 hours ++ natLe 3 cycles
  let b := if v < sext 32 (le r.body 0 4) then splice 0 new r.body else r.body
  let b := if sext 32 (le r.body 12 4) < v then splice 12 new b else b
  { r with body := b, hLast := hours }

/-- Adds to the open record of a kind, source and scope, or opens one, or loses it to a full buffer (R522). -/
def State.accumulate (s : State) (kind source scope : Nat) (fresh : List Byte) (f : CRec → CRec) : State :=
  let c := s.cairn
  let mine (r : CRec) : Bool := !r.closed && r.kind == kind && r.source == source && r.scope == scope
  if c.buf.any mine then { s with cairn := { c with buf := c.buf.map fun r => if mine r then f r else r } }
  else if 512 ≤ c.buf.length then ({ s with cairn := { c with lost := true, before := true } }).modCount .recordsLost
  else
    let r : CRec := { kind := kind, flags := 0, source := source, scope := scope, rpt := 0, rseq := c.rseq, hFirst := s.dep.hours,
                      cFirst := s.dep.cycles, hLast := s.dep.hours, body := fresh, opened := s.aon, closed := false }
    { s with cairn := { c with rseq := (c.rseq + 1) % 2 ^ 32, buf := c.buf ++ [f r] } }

/-- `n` samples of a value enter a histogram. -/
def State.cairnHist (s : State) (source scope : Nat) (edges : List Lns) (x : Lns) (n : Nat := 1) : State :=
  if n = 0 then s
  else s.accumulate 1 source scope ((fit 0 15 edges).flatMap (fun e => natLe 2 e.toNat) ++ List.replicate 66 0)
    fun r => r.sample s.dep.hours x n

/-- A value enters the extremes of a source. -/
def State.cairnExt (s : State) (source scope : Nat) (v : Int) : State :=
  let new := natLe 4 (intBits 32 v) ++ natLe 4 s.dep.hours ++ natLe 3 s.dep.cycles ++ natLe 1 0
  s.accumulate 2 source scope (new ++ new) fun r => r.meet s.dep.hours s.dep.cycles v

/-- A temperature in 0.25 °C enters the histogram in °C and the extremes of its source. -/
def State.cairnTemp (s : State) (source scope v : Nat) : State :=
  (s.cairnHist source scope (Config.moduleEdges source) (lnsOfRatio v 4)).cairnExt source scope v

end Sys2Proof.Machine
end

