-- ==== Sys2Proof/Machine/Drain.lean ====
section
/-!
DEFINITION. The drain slot (R154 to R158, R167, R168, R170), the block writes of the drain unit, the ends of holds and
stalls (R152), and the memory-side adders with their acknowledgements (R169 to R173).
-/

namespace Sys2Proof.Machine

/-! ### Outputs -/

/-- The outputs of a drain with their streams: 0 A, 1 B (R154). -/
def outputsOf (out ostra ostrb : Nat) : List (Nat × Nat) :=
  (if out % 2 = 1 then [(0, ostra)] else []) ++ (if 2 ≤ out then [(1, ostrb)] else [])

/-- The handle of an output stream for a drain operation: status 0x0765 when unbound, 0x0745 when it has the wrong kind
(R155, R241). -/
def StCore.outputHandle (c : StCore) (r : BitVec 64) (hkind : Nat) : Except Status Handle :=
  match c.handleOf r with
  | none => .error 0x0765#16
  | some h => if h.hkind = hkind then .ok h else .error 0x0745#16

/-- The first status that the output streams of a drain give (R155, R241). -/
def StCore.outputFault (c : StCore) (outs : List (Nat × Nat)) (hkind w : Nat) : Option Status :=
  outs.findSome? fun o =>
    match c.outputHandle (c.stream (8 + o.2)) hkind with
    | .error st => some st
    | .ok h => if hkind = 0 ∧ h.pitch < w then some 0x0314#16 else none

/-- The ticks that a drain of a slot is held (R153): the last product of the slot in the tree when the drain closes it,
an open BRUN window, a DFILL not yet visible. -/
def StCore.drainHold (c : StCore) (slot : Nat) (close : Bool) : Nat :=
  let tree := if close then
      c.tree.foldl (fun m p => if p.slot = slot then max m (p.u + 9 - c.atick) else m) 0
    else 0
  let win := c.bruns.foldl (fun m b => if b.s0 ≤ slot ∧ slot < b.s0 + b.b then max m (b.lastTick + 1 - c.atick) else m) 0
  let fill := c.fills.foldl (fun m f => if f.slot = slot then max m (f.due + 1 - c.tick) else m) 0
  max tree (max win fill)

/-! ### DRAIN and DRED -/

/-- The effect of a DRAIN or DRED: the slot closes first when asked, and each output is on its way (R150, R156). -/
def StCore.drainEffect (c c0 : StCore) (kind : DrainKind) (slot : Nat) (close : Bool) (outs : List (Nat × Nat))
    (gb ng w : Nat) (uns : Bool) : StCore :=
  let td := 128 / ng
  let x := (if close then c0.closeSlot slot else c0).slot slot
  let y := c.slot slot
  let c := if close && (c0.slot slot).isOpen && y.tile == (c0.slot slot).tile then c.closeSlot slot else c
  let jobs : List DrainJob := ((List.range outs.length).zip outs).map fun p =>
    { kind := kind, due := c.tick + 2 + (p.1 + 1) * td, first := c.tick + 2 + p.1 * td, vals := x.shadowOut p.2.1,
      datum := x.shadowD, ostr := p.2.2, reg := c0.stream (8 + p.2.2), words := [], gb := gb, ng := ng, w := w, uns := uns }
  { c with drains := c.drains ++ jobs, drainFree := c.tick + outs.length * td }

def drainBody (n : Nat) (kind : DrainKind) (slot out : Nat) (close : Bool) (ostra ostrb gb ngl w : Nat) (uns : Bool)
    (rsv : Nat) (s : State) : Issue :=
  let c := s.core n
  let c0 := (s.stn n).start
  let ng := 2 ^ ngl
  let outs := outputsOf out ostra ostrb
  let hk := if kind = .drain then 0 else 1
  failIf (decide (rsv ≠ 0 ∨ out = 0 ∨ ngl = 7 ∨ 64 < gb + ng) || (kind == .drain && w == 1 && !uns)) s
    { st := 0x0744#16, unit := 2, slot := slot } fun _ =>
  match c.task.unnamed gb ng [3] with
  | some g => .stop s { st := 0x0711#16, idx := g, aux := 1 }
  | none =>
    match c0.outputFault outs hk w with
    | some st => .stop s { st := st, unit := 2, slot := slot }
    | none =>
      busy s n (decide (c.tick < c.drainFree)) 0x0742#16 2 .drainBusy (c.drainFree - c.tick) fun _ =>
      let hold := c0.drainHold slot close
      if 0 < hold then .wait .drainHold hold
      else
        let x := (if close then c0.closeSlot slot else c0).slot slot
        let bad := kind == .dred && outs.any fun o =>
          match c0.outputHandle (c0.stream (8 + o.2)) hk with
          | .ok h => h.scale != x.shadowScale
          | .error _ => true
        failIf bad s { st := 0x0746#16, unit := 2, slot := slot } fun _ =>
        .ok (s.modCore n fun c => c.drainEffect c0 kind slot close outs gb ng w uns)

/-- DRAIN and DRED (R154 to R158, R167, R168). -/
def drainOp (n : Nat) (kind : DrainKind) (slot out : Nat) (close : Bool) (ostra ostrb gb ngl w : Nat) (uns : Bool)
    (rsv : Nat) (i : Instr) (s : State) : State :=
  slotOp n 1 i (drainBody n kind slot out close ostra ostrb gb ngl w uns rsv) s

/-- DNOP (R154); a reserved operation or field stops the task (R155). -/
def dnop (n code rsv : Nat) (i : Instr) (s : State) : State :=
  slotOp n 1 i (fun s => failIf (decide (code ≠ 0 ∨ rsv ≠ 0)) s { st := 0x0744#16, unit := 2 } fun _ => .ok s) s

/-! ### DINIT and DFILL -/

/-- Sets DI and START of a slot, and clears its shadow set to zero at Datum DI when asked (R154). -/
def Slot.dinit (x : Slot) (di : Int) (start : Nat) (clrs : Bool) : Slot :=
  let x := { x with di := di, start := start }
  if clrs then x.setShadow [] di else x

def dinitBody (n slot cnt : Nat) (di : Int) (start : Nat) (clrs : Bool) (rsv : Nat) (s : State) : Issue :=
  let c0 := (s.stn n).start
  let ks := (List.range cnt).map (slot + ·)
  failIf (decide (rsv ≠ 0 ∨ 64 < slot + cnt ∨ start = 3)) s { st := 0x0744#16, unit := 2, slot := slot } fun _ =>
  failIf (clrs && ks.any fun k => (c0.slot k).isOpen) s
    { st := 0x0743#16, unit := 2, slot := (ks.find? fun k => (c0.slot k).isOpen).getD slot } fun _ =>
  .ok (s.modCore n fun c => ks.foldl (fun (c : StCore) k => c.setSlot k ((c.slot k).dinit di start clrs)) c)

/-- DINIT (R154, R155). -/
def dinit (n slot cnt : Nat) (di : Int) (start : Nat) (clrs : Bool) (rsv : Nat) (i : Instr) (s : State) : State :=
  slotOp n 1 i (dinitBody n slot cnt di start clrs rsv) s

def dfillBody (n slot istr rsv : Nat) (env : Env) (s : State) : Issue :=
  let c := s.core n
  let c0 := (s.stn n).start
  let reg := c0.stream istr
  failIf (decide (rsv ≠ 0)) s { st := 0x0744#16, unit := 2, slot := slot } fun _ =>
  match c0.outputHandle reg 1 with
  | .error st => .stop s { st := st, unit := 2, slot := slot }
  | .ok h =>
    failIf (c0.slot slot).isOpen s { st := 0x0743#16, unit := 2, slot := slot } fun _ =>
    busy s n (decide (c.tick < c.drainFree)) 0x0742#16 2 .drainBusy (c.drainFree - c.tick) fun _ =>
    let a := h.blockAt (srPos reg)
    failIf (h.scratch && !inScratch a 1544) s { st := 0x0762#16, addr := scrAddr a } fun _ =>
    lateIf env h.scratch fun _ =>
    let r := s.fetch n 2 h.scratch a 1544 env 2
    match r.2 with
    | .error e => e
    | .ok bs =>
      let v := dfillSet bs
      let job : FillJob := { due := c.tick + 2, slot := slot, datum := v.1, vals := v.2, scale := h.scale }
      .ok (r.1.modCore n fun c =>
        { c with fills := c.fills ++ [job], drainFree := c.tick + 2 }.advance istr 1)

/-- DFILL (R154, R170). -/
def dfill (n slot istr rsv : Nat) (env : Env) (i : Instr) (s : State) : State :=
  slotOp n 1 i (dfillBody n slot istr rsv env) s

/-! ### Block writes (R156, R167, R168, R172) -/

/-- A unit's write of bytes to a handle's place: the scratchpad at once, the Range by posting; the fault otherwise. -/
def State.writeOut (s : State) (n : Nat) (scratch : Bool) (a : Nat) (bs : List Byte) (rmw : Sram) : State × Option Flt :=
  if scratch then
    if inScratch a bs.length then (s.modStn n fun x => x.sput a bs, none)
    else (s, some { st := 0x0762#16, addr := scrAddr a })
  else
    match s.writeCheck n (s.core n).task.desc.parcel a bs.length with
    | some x => (s.countRefused x, some { st := x.1, addr := x.2 })
    | none =>
      let r := s.post n a bs rmw
      (r.1, r.2.map fun x => { st := x.1, addr := x.2 })

/-- Sends the sum block of a DRED as an atomic add: to the controller of its page, or to another module (R168, R384). -/
def State.sendAdd (s : State) (n a : Nat) (bs : List Byte) : State :=
  let p := (s.core n).task.desc.parcel
  if isWindow a then
    match (s.parcel p).windowAt (rpageOf a) with
    | some w => s.sendFrame 0x02 1 w.module w.parcel p (w.rbase + (a - w.base * 2 ^ 21)) bs (some n) none
    | none => s
  else
    let e := s.page (rpageOf a)
    let id := s.mem.atomicId
    let at_ : Atomic := { id := id, stn := n, parcel := p, addr := a, ctl := stackNum e.loc e.lstack, bytes := bs }
    let s := s.touchPages n a bs.length
    let s := { s with mem := { s.mem with atomicId := id + 1, atomics := s.mem.atomics ++ [at_] } }
    s.modCore n fun c => { c with task := { c.task with acksOut := c.task.acksOut ++ [id] } }

/-- The oldest block of the drain unit, which is due, is rounded and written to its output stream (R156). -/
def State.writeDrain (s : State) (n : Nat) (env : Env) : State :=
  let x := s.stn n
  match x.between, x.dueDrain with
  | true, some j =>
    let w := x.core.finishDither j.gb j.ng 512 j.words
    let s := s.modCore n fun _ => { w.1 with drains := w.1.drains.drop 1 }
    match x.core.drainTarget j with
    | none => s.endTask n { st := 0x0765#16 } j.due
    | some (h, pos) =>
      let a := h.blockAt pos
      let adv (s : State) : State := s.modCore n fun c =>
        let cur := c.stream (8 + j.ostr)
        if srKind cur = srKind j.reg ∧ srHidx cur = srHidx j.reg then c.moveStream (8 + j.ostr) 1 else c
      match j.kind with
      | .drain =>
        let b := drainBlock h.plane j.uns j.w j.datum j.vals w.2
        let r := s.writeOut n h.scratch a b.1 env.rmw
        match r.2 with
        | some f => r.1.endTask n { f with unit := if f.unit = 4 ∧ f.st ≠ 0x0762#16 then 5 else f.unit } j.due
        | none => adv (r.1.modCore n fun c => (c.fmt b.2).count .accBlocks)
      | .dred =>
        match s.writeCheck n x.core.task.desc.parcel a 1544 with
        | some f => (s.countRefused f).endTask n { st := f.1, addr := f.2, unit := 5 } j.due
        | none =>
          let b := dredBlock j.datum j.vals w.2
          let s := s.sendAdd n a b.1
          adv (s.modCore n fun c =>
            let c := c.count .accRed
            { c with saved := { c.saved with dred := true },
                     task := if 0 < b.2 then { c.task with quals := c.task.quals ++ [0x0003#16] } else c.task })
  | _, _ => s

/-- A Station whose write meets a page that moves freezes as for late data (R317). -/
def State.freezeWriter (s : State) (n : Nat) : State :=
  s.modStn n fun x => if x.held.isNone && !x.core.task.ended then { x with held := some { why := .late, need := 0, ops := [] } } else x

/-- Whether the block of a drain goes to a Range page that moves. A sum block is sent on its way all the same (R172, R317). -/
def State.drainMoves (s : State) (n : Nat) (j : DrainJob) : Bool :=
  j.kind == .drain && match (s.core n).drainTarget j with
    | some (h, pos) => !h.scratch && s.movingAt (h.blockAt pos) (64 * j.w + 8)
    | none => false

/-- DRAIN_BLOCK_WRITE (R156, R317). -/
def drainBlockWrite (n : Nat) (env : Env) (s : State) : State :=
  match (s.stn n).between, (s.stn n).dueDrain with
  | true, some j =>
    if s.drainMoves n j then s.freezeWriter n
    else s.afterIdle n j.due Env.clean fun s => s.writeDrain n env
  | _, _ => s

/-! ### The memory-side adders (R169, R171 to R173) -/

/-- The sectors of a sum block. -/
def sectorsOf (s : State) (a len : Nat) : List Nat :=
  ((List.range len).map fun i => s.phys (a + i) / 64).eraseDups

/-- Applies one atomic add at its block (R169): the state, and whether a sum saturated; or the block is poisoned and the
update is not applied (R173), or the controller's adder has failed its test (R504). -/
def State.applyAdd (s : State) (a : Nat) (bs : List Byte) (env : Env) : State × Except Status Bool :=
  match (pagesOf a 1544).findSome? s.stackRefuses with
  | some st => (s.countRefused (st, a), .error st)
  | none =>
  let k := let e := s.page (rpageOf a); stackNum e.loc e.lstack
  let pt := (s.perturbHit 3 k).perturb 3 k false a 1544
  let s := if pt.2 = some false then (pt.1.modStack k fun x => { x with status := setB x.status 0 }).memCount k .ce else pt.1
  let s := if env.ce && !env.ue then s.corrected k else s
  let ue := env.ue || pt.2 == some true
  if s.dep.adders.contains (let e := s.page (rpageOf a); stackNum e.loc e.lstack) then (s, .error 0x03E0#16)
  else if ue ∨ (s.poisonAt a 1544).isSome then
    let ks := sectorsOf s a 1544
    let g := rpageOf a
    let e := s.page g
    let s := { s with mem := { s.mem with poison := ks ++ s.mem.poison.filter fun k => !ks.contains k } }
    let s := if ue then (s.memCount (stackNum e.loc e.lstack) .ue).notify e.owner 0x0020
      (weightDetail g 0x0380#16 (stackNum e.loc e.lstack)) else s
    (s.modStack (stackNum e.loc e.lstack) fun x => { x with status := setB (if ue then setB x.status 1 else x.status) 2 },
     .error 0x0340#16)
  else
    let r := adderBlock (s.rbytes a 1544) bs
    (s.rput a r.1, .ok r.2)

/-- MEMORY_ATOMIC_ADD (R169, R171): a controller applies the update that arrived first; updates of a page that moves wait for
its flip (R317). -/
def memoryAtomicAdd (ctl : Nat) (env : Env) (s : State) : State :=
  match s.mem.atomics.find? fun x => x.ctl == ctl && !s.movingAt x.addr 1544 with
  | none => s
  | some x =>
    let s := { s with mem := { s.mem with atomics := s.mem.atomics.filter fun y => y.id != x.id } }
    let s := s.noteAcc ctl
    let r := s.applyAdd x.addr x.bytes env
    match r.2 with
    | .ok sat => { r.1 with mem := { r.1.mem with acks := r.1.mem.acks ++ [(x.id, x.stn, b2n sat)] } }
    | .error st =>
      if (r.1.core x.stn).task.acksOut.contains x.id then
        r.1.endTask x.stn { st := st, addr := x.addr, unit := 2 } ((r.1.core x.stn).tick)
      else r.1

/-- ATOMIC_ADD_ACK (R172): the acknowledgement of an applied add reaches the task that sent it. -/
def atomicAddAck (n id : Nat) (s : State) : State :=
  match s.mem.acks.find? fun a => a.1 == id && a.2.1 == n with
  | none => s
  | some a =>
    let s := { s with mem := { s.mem with acks := s.mem.acks.erase a } }
    s.modCore n fun c =>
      if c.task.acksOut.contains id then
        { c with task := { c.task with acksOut := c.task.acksOut.erase id,
                                       quals := if a.2.2 = 1 then c.task.quals ++ [0x0003#16] else c.task.quals } }
      else c

/-! ### The meanings -/

def execDnop (n : Stn) (code : BitVec 4) (rsv : BitVec 36) (s : State) : Host.Outcome State Fault Refusal :=
  .next (dnop n code.toNat rsv.toNat (.dnop n code rsv) s)
def execDrain (n : Stn) (slot : BitVec 6) (out : BitVec 2) (close : Bool) (ostra ostrb : BitVec 2) (gb : BitVec 6)
    (ngl wm1 : BitVec 3) (uns : Bool) (rsv : BitVec 10) (s : State) : Host.Outcome State Fault Refusal :=
  .next (drainOp n .drain slot.toNat out.toNat close ostra.toNat ostrb.toNat gb.toNat ngl.toNat (wm1.toNat + 1) uns rsv.toNat
    (.drain n slot out close ostra ostrb gb ngl wm1 uns rsv) s)
def execDred (n : Stn) (slot : BitVec 6) (out : BitVec 2) (close : Bool) (ostra ostrb : BitVec 2) (gb : BitVec 6)
    (ngl : BitVec 3) (rsvw : BitVec 4) (rsv : BitVec 10) (s : State) : Host.Outcome State Fault Refusal :=
  .next (drainOp n .dred slot.toNat out.toNat close ostra.toNat ostrb.toNat gb.toNat ngl.toNat 0 false
    (rsvw.toNat + rsv.toNat) (.dred n slot out close ostra ostrb gb ngl rsvw rsv) s)
def execDinit (n : Stn) (slot nm1 : BitVec 6) (di : BitVec 8) (start : BitVec 2) (clrs : Bool) (rsv : BitVec 13) (s : State)
    : Host.Outcome State Fault Refusal :=
  .next (dinit n slot.toNat (nm1.toNat + 1) di.toInt start.toNat clrs rsv.toNat (.dinit n slot nm1 di start clrs rsv) s)
def execDfill (n : Stn) (slot : BitVec 6) (istr : BitVec 2) (rsv : BitVec 28) (env : Env) (s : State)
    : Host.Outcome State Fault Refusal :=
  .next (dfill n slot.toNat istr.toNat rsv.toNat env (.dfill n slot istr rsv env) s)
def execDrainBlockWrite (n : Stn) (env : Env) (s : State) : Host.Outcome State Fault Refusal := .next (drainBlockWrite n env s)
def execMemoryAtomicAdd (ctl : Fin 20) (env : Env) (s : State) : Host.Outcome State Fault Refusal :=
  .next (memoryAtomicAdd ctl env s)
def execAtomicAddAck (n : Stn) (id : Nat) (s : State) : Host.Outcome State Fault Refusal := .next (atomicAddAck n id s)

end Sys2Proof.Machine
end

