-- ==== Sys2Proof/Machine/ReconOps.lean ====
section
/-!
DEFINITION. The Recon slot: RNOP, RPRED, RSEL, RFIN and RCHK with the checks of R187, R189 and R193, and the writing of
records and lists (R191, R192).
-/

namespace Sys2Proof.Machine

/-- The fault of a Recon operation. -/
def recFlt (st : Status) : Flt := { st := st, unit := 3 }

/-- Reads and checks the parameter block of an operation (R187). `sel` says whether the operation takes MODE 2, for RPRED
and RSEL, whose KB is 1 (R190); `tok` and `ntok` bound the areas it reaches. -/
def State.param (s : State) (n pblk : Nat) (sel : Option Bool) (tok ntok : Nat) (env : Env) : State × Except Issue Param :=
  let a := pblk * 128
  let bad (s : State) : State × Except Issue Param := (s, .error (.stop s (recFlt 0x0750#16)))
  if !inScratch a 64 then bad s
  else
    let r := s.checked n 9 a 64 env ((s.stn n).sbytes a 64)
    match r.2 with
    | .error e => (r.1, .error e)
    | .ok bs =>
      let p := paramOf a bs
      let modeOk := match sel with
        | some b => b == (p.mode == 2) && (!b || p.kb == 1)
        | none => true
      let same := match (s.core n).pblk with
        | some q => q == a
        | none => true
      if paramOk p bs tok ntok && modeOk && same then (r.1, .ok p) else bad r.1

/-- The status that a generator gives when a Recon operation draws it without the role (R66, R189). -/
def Task.recRole (t : Task) (g role : Nat) : Option (Status × Nat) :=
  let rs := t.roles g
  if rs.contains role then none else if rs.isEmpty then some (0x0711#16, g) else some (0x0751#16, g)

/-- The first generator of a range that lacks the role. -/
def Task.recRoles (t : Task) (gb ng role : Nat) : Option (Status × Nat) :=
  (List.range ng).findSome? fun k => t.recRole (gb + k) role

def genFault (s : State) (x : Status × Nat) : Issue :=
  .stop s { st := x.1, idx := if x.1 = 0x0711#16 then x.2 else 0, aux := if x.1 = 0x0711#16 then 2 else 0, unit := 3 }

/-- Ticks until an RFIN in its ticks is over (R193). -/
def StCore.finLeft (c : StCore) : Nat := c.fins.foldl (fun m f => max m (f.due - c.tick)) 0

/-- RPRED and RSEL read and check their first input block (access 0) and the parameter block (access 1) as they issue. -/
def predBody (n : Nat) (sel : Bool) (istr pblk tok gb rsv : Nat) (env : Env) (s : State) : Issue :=
  let reg := (s.stn n).start.stream istr
  failIf (decide (rsv ≠ 0)) s (recFlt 0x0754#16) fun _ =>
  let q := s.param n pblk (some sel) tok 0 (env.of 1)
  match q.2 with
  | .error e => e
  | .ok p =>
    let s := q.1
    let c := s.core n
    let need := max (c.recFree - c.tick) c.finLeft
    busy s n (decide (0 < need)) 0x0752#16 3 .recon need fun _ =>
    match c.task.recRoles gb p.gensUsed 1 with
    | some x => genFault s x
    | none =>
      match c.inputHandle reg with
      | .error st => .stop s { st := st, unit := if st = 0x0734#16 then 1 else 4 }
      | .ok h =>
        lateIf env h.scratch fun _ =>
        let d0 := c.tick + p.kb + 2
        let d1 := d0 + p.drawTicks
        let j : RecJob := { next := c.tick + 1, draw0 := d0, dec0 := d1, due := d1 + p.decTicks, par := p, tok := tok, sel := sel,
                            reg := reg, ins := [], mags := [], total := 0, s1 := lnsZero,
                            counts := List.replicate p.n (0, 0), gb := gb, ng := p.gensUsed, decs := 0, top := [], skips := [] }
        let r := s.reconBlock n j 0 (env.of 0)
        match r.2 with
        | .error e => e
        | .ok j =>
          .ok (r.1.modCore n fun c => { c with recs := c.recs ++ [j], recFree := d1, recVisible := j.due + 1,
                                               pblk := some p.addr })

/-- RPRED and RSEL (R188 to R190). -/
def predOp (n : Nat) (sel : Bool) (istr pblk tok gb rsv : Nat) (env : Env) (i : Instr) (s : State) : State :=
  slotOp n 2 i (predBody n sel istr pblk tok gb rsv env) s

/-- RNOP (R185); a reserved operation or field stops the task (R187). -/
def rnop (n code rsv : Nat) (i : Instr) (s : State) : State :=
  slotOp n 2 i (fun s => failIf (decide (code ≠ 0 ∨ rsv ≠ 0)) s (recFlt 0x0754#16) fun _ => .ok s) s

/-- The lines of a list are written in the ticks of the RFIN, spread evenly. -/
def State.touchSpread (s : State) (n a len t tf : Nat) : State :=
  let m := (a + len - 1) / 128 - a / 128 + 1
  (List.range m).foldl (fun (s : State) i => s.touchAt n 9 (t + 1 + i * tf / m) ((a / 128 + i) * 128) 1) s

/-- An RFIN leaves PBLK to the operations after it, from its issue on (R187). The gather list's lines are written in its ticks. -/
def rfinBody (n pblk ntok ga rsv : Nat) (env : Env) (s : State) : Issue :=
  failIf (decide (rsv ≠ 0)) s (recFlt 0x0754#16) fun _ =>
  let q := s.param n pblk none 0 ntok (env.of 1)
  match q.2 with
  | .error e => e
  | .ok p =>
    let s := q.1
    let c := s.core n
    let need := max (c.recVisible - c.tick) c.finLeft
    busy s n (decide (0 < need)) 0x0752#16 3 .recon need fun _ =>
    match if p.audlog = 0 then none else c.task.recRole ga 2 with
    | some x => genFault s x
    | none =>
      let tf := max 16 (ceilDiv ntok 4)
      let cnt := if c.fins.isEmpty then (unionList c.union p.n).length else 0
      let s := s.touchSpread n p.lista (4 + 2 * cnt) c.tick tf
      let job : FinJob := { due := c.tick + tf, issue := c.tick, par := p, ntok := ntok, ga := ga, words := [] }
      .ok (s.modCore n fun c => { c with fins := c.fins ++ [job], pblk := none })

/-- RFIN (R192). -/
def rfin (n pblk ntok ga rsv : Nat) (env : Env) (i : Instr) (s : State) : State :=
  slotOp n 2 i (rfinBody n pblk ntok ga rsv env) s

/-- Recon's port takes areas of any length in the present tick: each bank once, at its last line. -/
def State.touchBanks (s : State) (n : Nat) (areas : List (Nat × Nat)) : State :=
  let c := s.core n
  let ls := areas.flatMap fun a => (lineStarts a.1 a.2).map fun b => (bankLine c.task.image b, max a.1 b)
  (List.range 32).foldl (fun (s : State) b =>
    match ls.filter fun l => l.1.1 == b with
    | [] => s
    | l :: r =>
      let m := r.foldl (fun m x => if m.1.2 < x.1.2 then x else m) l
      s.touch n 9 m.2 1) s

/-- COUNT of the gather list at LISTA, as far as the entries are read. -/
def Station.listCount (x : Station) (p : Param) : Nat := min 4096 (le (x.sbytes p.lista 2) 0 2)

/-- The complement outputs of the gather list at LISTA (R202, R203). -/
def Station.complement (x : Station) (p : Param) : List Nat :=
  let cnt := x.listCount p
  let es := (List.range cnt).map fun k => le (x.sbytes (p.lista + 4 + 2 * k) 2) 0 2
  (List.range p.n).filter fun j => !es.contains (p.ofs + j)

/-- The misses of one audited block (R203): the elements compared and those that meet the comparison, with flags. -/
def Station.auditBlock (x : Station) (p : Param) (tok bi : Nat) (qs es : List Int) (scale : Lns) : Nat × Nat × FmtEv :=
  let js := (x.complement p).drop (512 * bi) |>.take 512
  let m := x.tabWord (p.reca + 576 * tok + 512) 0
  let lim := lnsSub m p.theta
  let rows := ((List.range js.length).zip js).map fun o =>
    let y := lnsOfElem (qs.getD o.1 0) (es.getD (o.1 / 64) 0) scale
    let th := if p.mode = 2 then lim.1 else x.theta p o.2
    (lnsGe (if p.mode = 1 then lnsAbs y.1 else y.1) th, y.2)
  (js.length, (rows.filter (·.1)).length, rows.foldl (fun e r => e.add r.2) (if p.mode = 2 then lim.2 else {}))

/-- The areas that RCHK reads beside its block, each with the number of its access: the gather list, the threshold table, the
record's M. -/
def Station.auditAreas (x : Station) (p : Param) (tok bi : Nat) : List (Nat × Nat × Nat) :=
  let js := ((x.complement p).drop (512 * bi)).take 512
  (2, p.lista, 4 + 2 * x.listCount p)
    :: (if p.mode = 2 then [(4, p.reca + 576 * tok + 512, 2)]
        else if p.tt && !js.isEmpty then
          [(3, p.ttab + 2 * js.headD 0, 2 * (js.getLastD 0 + 1 - js.headD 0))]
        else [])

/-- RCHK reads everything in its issue tick (R203, R222). -/
def rchkBody (n istr pblk tok bi rsv : Nat) (env : Env) (s : State) : Issue :=
  let reg := (s.stn n).start.stream istr
  failIf (decide (rsv ≠ 0)) s (recFlt 0x0754#16) fun _ =>
  let q := s.param n pblk none tok 0 (env.of 1)
  match q.2 with
  | .error e => e
  | .ok p =>
    let s := q.1
    let c := s.core n
    let need := max (c.recVisible - c.tick) c.finLeft
    busy s n (decide (0 < need)) 0x0752#16 3 .recon need fun _ =>
    match c.inputHandle reg with
    | .error st => .stop s { st := st, unit := if st = 0x0734#16 then 1 else 4 }
    | .ok h =>
      lateIf env h.scratch fun _ =>
      let r := s.readBlock n 9 h (srPos reg) (env.of 0) 3
      match r.2 with
      | .error e => e
      | .ok b =>
        let areas := (r.1.stn n).auditAreas p tok bi
        let k := stepsOver areas (r.1.touchBanks n (areas.map (·.2)), .ok ()) fun s _ (a : Nat × Nat × Nat) =>
          let d := s.checked n 9 a.2.1 a.2.2 (env.of a.1) []
          (d.1, d.2.map fun _ => ())
        match k.2 with
        | .error e => e
        | .ok _ =>
          let v := (k.1.stn n).auditBlock p tok bi (blockElems false b.1 b.2) b.1.es h.scale
          .ok (k.1.modCore n fun c =>
            let c := (((c.fmt v.2.2).count .recAudChk v.1).count .recMisses v.2.1).advance istr 1
            { c with recChk := c.tick + 2 })

/-- RCHK (R203). -/
def rchk (n istr pblk tok bi rsv : Nat) (env : Env) (i : Instr) (s : State) : State :=
  slotOp n 2 i (rchkBody n istr pblk tok bi rsv env) s

/-- The record of the oldest RPRED or RSEL, which is due, is written and the union updated (R191). -/
def State.writeRecon (s : State) (n : Nat) : State :=
  match (s.stn n).between, (s.stn n).dueRec with
  | true, some j =>
    let s := s.modStn n fun x => x.sput (j.par.reca + 576 * j.tok) (recordBytes j.skips j.recordM)
    s.modCore n fun c =>
      let c := (c.count .recTokens).count .recSkipped (j.skips.filter id).length
      { c with recs := c.recs.drop 1, union := unionWith c.union j.skips }
  | _, _ => s

/-- RECON_RECORD_WRITE (R190, R191). What `env` says meets Recon's first access in the ticks that pass first. -/
def reconRecordWrite (n : Nat) (env : Env) (s : State) : State :=
  match (s.stn n).between, (s.stn n).dueRec with
  | true, some j => s.afterIdle n j.due env fun s => s.writeRecon n
  | _, _ => s

/-- The words that a write of `len` bytes covers in part are read and checked first (R253): the first word and the last. -/
def State.partWords (s : State) (n a len : Nat) (env : Env) : State × Except Issue Unit :=
  let first := if a % 8 ≠ 0 ∨ len < 8 then [a / 8 * 8] else []
  let last := if (a + len) % 8 ≠ 0 ∧ (a + len) / 8 ≠ a / 8 then [(a + len) / 8 * 8] else []
  let ws := first ++ last
  stepsOver ((List.range ws.length).zip ws) (s, .ok ()) fun s _ p =>
    let d := s.checked n 9 p.2 8 (env.of p.1) []
    (d.1, d.2.map fun _ => ())

/-- The gather list and the audit list of an RFIN that is due are written and the union is cleared (R192). What `env` says meets the
words covered in part. -/
def State.writeLists (s : State) (n : Nat) (env : Env) : State :=
  match (s.stn n).between, (s.stn n).dueFin with
  | true, some j =>
    let p := j.par
    let js := unionList (s.core n).union p.n
    let ts := auditTokens p j.ntok j.words
    let gl := gatherListBytes p js
    let al := auditListBytes ts
    let r := s.partWords n p.lista gl.length env
    let q := r.1.partWords n p.alista al.length { env with nth := env.nth - 2 }
    match r.2, if env.nth < 2 then r.2 else q.2 with
    | .ok _, .ok _ =>
      ((if env.nth < 2 then r.1 else q.1).modStn n fun x => (x.sput p.lista gl).sput p.alista al).modCore n fun c =>
        let c := ((c.count .recEntries js.length).count .recSlots p.n).count .recAudSel ts.length
        { c with fins := c.fins.drop 1, union := 0 }
    | .error e, _ => r.1.settleIssue n e ((s.core n).tick - 1)
    | _, .error e => q.1.settleIssue n e ((s.core n).tick - 1)
  | _, _ => s

/-- RFIN_LISTS_WRITE (R192). -/
def rfinListsWrite (n : Nat) (env : Env) (s : State) : State :=
  match (s.stn n).between, (s.stn n).dueFin with
  | true, some j => s.afterIdle n j.due Env.clean fun s => s.writeLists n env
  | _, _ => s

/-! ### The meanings -/

def execRnop (n : Stn) (code : BitVec 4) (rsv : BitVec 36) (s : State) : Host.Outcome State Fault Refusal :=
  .next (rnop n code.toNat rsv.toNat (.rnop n code rsv) s)
def execRpred (n : Stn) (istr : BitVec 2) (pblk : BitVec 18) (tok : BitVec 7) (gb : BitVec 6) (rsv : BitVec 3) (env : Env)
    (s : State) : Host.Outcome State Fault Refusal :=
  .next (predOp n false istr.toNat pblk.toNat tok.toNat gb.toNat rsv.toNat env (.rpred n istr pblk tok gb rsv env) s)
def execRsel (n : Stn) (istr : BitVec 2) (pblk : BitVec 18) (tok : BitVec 7) (gb : BitVec 6) (rsv : BitVec 3) (env : Env)
    (s : State) : Host.Outcome State Fault Refusal :=
  .next (predOp n true istr.toNat pblk.toNat tok.toNat gb.toNat rsv.toNat env (.rsel n istr pblk tok gb rsv env) s)
def execRfin (n : Stn) (pblk : BitVec 18) (ntm1 : BitVec 7) (ga : BitVec 6) (rsv : BitVec 5) (env : Env) (s : State)
    : Host.Outcome State Fault Refusal :=
  .next (rfin n pblk.toNat (ntm1.toNat + 1) ga.toNat rsv.toNat env (.rfin n pblk ntm1 ga rsv env) s)
def execRchk (n : Stn) (istr : BitVec 2) (pblk : BitVec 18) (tok : BitVec 7) (bi : BitVec 3) (rsv : BitVec 6) (env : Env)
    (s : State) : Host.Outcome State Fault Refusal :=
  .next (rchk n istr.toNat pblk.toNat tok.toNat bi.toNat rsv.toNat env (.rchk n istr pblk tok bi rsv env) s)
def execReconRecordWrite (n : Stn) (env : Env) (s : State) : Host.Outcome State Fault Refusal :=
  .next (reconRecordWrite n env s)
def execRfinListsWrite (n : Stn) (env : Env) (s : State) : Host.Outcome State Fault Refusal := .next (rfinListsWrite n env s)

end Sys2Proof.Machine
end

