-- ==== Sys2Proof/Machine/Vector.lean ====
section
/-!
DEFINITION. The vector slots V0 to V3 (R243 to R246), EXP2 (R136) and the ternarisation operations (R361, R362), with
the block write of VPACK.
-/

namespace Sys2Proof.Machine

/-! ### Operand fields (R243) -/

def auxSA (aux : BitVec 35) : Nat := bits aux.toNat 34 30
def auxOff (aux : BitVec 35) : Int := sext 16 (bits aux.toNat 29 14)

/-- The address S[SA] + k × OFF, modulo 2^32 (R243, R361). -/
def StCore.vaddr (c : StCore) (aux : BitVec 35) (k : Nat) : Nat :=
  intBits 32 ((c.sreg (auxSA aux)).toNat + (k : Int) * auxOff aux)

def slotIllegal (s : State) (c : Bool) (k : Unit → Issue) : Issue := failIf c s { st := 0x0761#16 } k

/-- The address checks of a vector memory operation (R243, R550): alignment and extent. -/
def addrCheck (s : State) (a len align : Nat) (k : Unit → Issue) : Issue :=
  failIf (decide (a % align ≠ 0) || !inScratch a len) s { st := 0x0762#16, addr := scrAddr a } k

/-- Latency of a read that starts at `near` ticks from a near bank (R219, R221). -/
def StCore.latency (c : StCore) (a len near : Nat) : Nat := if isFar c.task.image a len then near + 2 else near

/-! ### Lane operations -/

/-- An operation on registers: its result reaches L[VD] after its latency, its flags are raised (R244). -/
def laneOp (n e vd lat : Nat) (bad : Bool) (f : StCore → List Lns × FmtEv) (i : Instr) (s : State) : State :=
  slotOp n (3 + e) i (fun s =>
    slotIllegal s bad fun _ =>
      .ok (s.modCore n fun c => let r := f c; (c.fmt r.2).result lat (.vector e vd) 0 r.1)) s

/-- Lane by lane over two registers. -/
def lanes2 (f : Lns → Lns → Lns × FmtEv) (e va vb : Nat) (c : StCore) : List Lns × FmtEv :=
  let rs := ((c.vreg e va).zip (c.vreg e vb)).map fun p => f p.1 p.2
  (rs.map (·.1), rs.foldl (fun a r => a.add r.2) {})

/-- Lane by lane over one register. -/
def lanes1 (f : Lns → Lns × FmtEv) (e va : Nat) (c : StCore) : List Lns × FmtEv :=
  let rs := (c.vreg e va).map f
  (rs.map (·.1), rs.foldl (fun a r => a.add r.2) {})

def laneMax (a b : Lns) : Lns × FmtEv := (lnsCanon (if lnsGe a b then a else b), {})
def laneMin (a b : Lns) : Lns × FmtEv := (lnsCanon (if lnsGe b a then a else b), {})
def laneGe (a b : Lns) : Lns × FmtEv := (if lnsGe a b then 0x0000#16 else lnsZero, {})

/-- The largest lane and the lowest index that holds it (VRMAX). -/
def largestLane (l : List Lns) : Lns × Nat :=
  let m := lnsMax l
  (lnsCanon m, ((List.range l.length).zip l |>.find? fun p => lnsKey p.2 == lnsKey m).map (·.1) |>.getD 0)

/-- Sums of neighbouring lanes (VRSUM). -/
def pairSums : List Lns → List Lns × FmtEv
  | a :: b :: r =>
    let x := lnsAdd a b
    let y := pairSums r
    (x.1 :: y.1, x.2.add y.2)
  | l => (l, {})

def sumLevels : Nat → List Lns → List Lns × FmtEv
  | 0, l => (l, {})
  | k + 1, l =>
    let x := pairSums l
    let y := sumLevels k x.1
    (y.1, x.2.add y.2)

/-- A result whose first lanes are given and whose other lanes hold zero. -/
def firstLanes (l : List Lns) : List Lns := fit lnsZero 256 l

/-- The largest lane as VRMAX writes it. -/
def rmaxOf (l : List Lns) : List Lns :=
  let m := largestLane l
  firstLanes [m.1, BitVec.ofNat 16 m.2]

/-- 256 words from 512 bytes, and back (VLD, VST): the engines write zero as 0x4000 alone (R46). -/
def lanesOfBytes (bs : List Byte) : List Lns := (List.range 256).map fun i => lnsCanon (BitVec.ofNat 16 (le bs (2 * i) 2))
def bytesOfLanes (l : List Lns) : List Byte := l.flatMap fun w => natLe 2 (lnsCanon w).toNat

/-! ### Loads and stores -/

/-- A read of the scratchpad by an engine whose result reaches L[VD]. -/
def loadOp (n e vd lat : Nat) (bad : Bool) (aux : BitVec 35) (len : Nat) (env : Env)
    (f : StCore → List Byte → List Lns) (i : Instr) (s : State) : State :=
  slotOp n (3 + e) i (fun s =>
    let c := s.core n
    let a := c.vaddr aux 32
    slotIllegal s (bad || decide (bits aux.toNat 13 0 ≠ 0)) fun _ =>
    addrCheck s a len 32 fun _ =>
    let r := s.sread n (3 + e) a len env
    match r.2 with
    | .error x => x
    | .ok bs => .ok (r.1.modCore n fun c => c.result (c.latency a len lat) (.vector e vd) 0 (f c bs))) s

/-- VST (R243). -/
def storeOp (n e va : Nat) (bad : Bool) (aux : BitVec 35) (i : Instr) (s : State) : State :=
  slotOp n (3 + e) i (fun s =>
    let c := s.core n
    let a := c.vaddr aux 32
    slotIllegal s (bad || decide (bits aux.toNat 13 0 ≠ 0)) fun _ =>
    addrCheck s a 512 32 fun _ => .ok (s.swrite n (3 + e) a (bytesOfLanes (c.vreg e va)))) s

/-- VMSKLD: the lanes of a register whose mask bits are 1. -/
def maskLanes (l : List Lns) (bs : List Byte) : List Lns :=
  ((List.range 256).zip l).map fun p => if le bs (p.1 / 8) 1 / 2 ^ (p.1 % 8) % 2 = 1 then lnsCanon p.2 else lnsZero

/-- The pieces of a block that VCVT reads after the header: offset and length (R245). -/
def cvtPieces (w h : Nat) (plane : Bool) : List (Nat × Nat) :=
  if plane then (List.range w).map fun k => (8 + 64 * k + 32 * h, 32) else [(8 + 32 * w * h, 32 * w)]

/-- VCVT (R52, R245). -/
def cvtOp (n e vd : Nat) (bad : Bool) (aux : BitVec 35) (env : Env) (i : Instr) (s : State) : State :=
  slotOp n (3 + e) i (fun s =>
    let c := s.core n
    let a := c.vaddr aux 32
    let h := bits aux.toNat 13 13
    let pm := bits aux.toNat 12 12 == 1
    slotIllegal s (bad || decide (bits aux.toNat 11 0 ≠ 0)) fun _ =>
    addrCheck s a 8 8 fun _ =>
    let hd := hdrOf ((s.stn n).sbytes a 8)
    match hdrCheck12 hd with
    | some st => .stop s { st := st, addr := scrAddr a, unit := 5 }
    | none =>
      let ps := cvtPieces hd.w h pm
      let last := ((ps.getLast?).map fun p => p.1 + p.2).getD 8
      addrCheck s a last 8 fun _ =>
      let s := (s.touch n (3 + e) a 8)
      let s := ps.foldl (fun (s : State) p => s.touch n (3 + e) (a + p.1) p.2) s
      let s := s.modCore n fun c => { c with accs := c.accs.eraseDups }
      let r := s.checked n (3 + e) a last env ((s.stn n).sbytes (a + 8) (64 * hd.w))
      match r.2 with
      | .error x => x
      | .ok pl =>
        let q := ((blockElems pm hd pl).drop (256 * h)).take 256
        let sc := c.vscl e
        let rs := ((List.range 256).zip q).map fun p => lnsOfElem p.2 (hd.es.getD ((256 * h + p.1) / 64) 0) sc
        .ok (r.1.modCore n fun c =>
          (c.fmt (rs.foldl (fun a r => a.add r.2) {})).result (c.latency a last 5) (.vector e vd) 0 (rs.map (·.1)))) s

/-! ### VPACK (R246) -/

/-- The ticks until an engine's pack stage is free. -/
def StCore.packLeft (c : StCore) (e : Nat) : Nat :=
  c.packs.foldl (fun m j => if j.engine = e then max m (j.free - c.tick) else m) 0

def packOp (n e va vb : Nat) (bad : Bool) (aux : BitVec 35) (i : Instr) (s : State) : State :=
  slotOp n (3 + e) i (fun s =>
    let c := s.core n
    let a := c.vaddr aux 32
    let w := bits aux.toNat 13 11 + 1
    let uns := bits aux.toNat 10 10 == 1
    let gb := bits aux.toNat 8 3
    let ng := 2 ^ bits aux.toNat 2 0
    slotIllegal s (bad || decide (bits aux.toNat 2 0 = 7 ∨ 64 < gb + ng ∨ w = 1 ∧ uns = false)) fun _ =>
    addrCheck s a (burst w) 8 fun _ =>
    match c.task.unnamed gb ng [4] with
    | some g => .stop s { st := 0x0711#16, idx := g, aux := 3 + e, unit := 5 }
    | none =>
      busy s n (decide (0 < c.packLeft e)) 0x0768#16 4 .pack (c.packLeft e) fun _ =>
      let j : PackJob := { engine := e, first := c.tick + 2, free := c.tick + 128 / ng, words := [], due := c.tick + 2 + 128 / ng, addr := a,
                           xs := c.vreg e va ++ c.vreg e vb, sout := c.vscl e, plane := bits aux.toNat 9 9 == 1, uns := uns,
                           w := w, gb := gb, ng := ng }
      .ok (s.modCore n fun c => { c with packs := c.packs ++ [j] })) s

/-- The packed block of an engine, which is due, is rounded and written to the scratchpad (R246). -/
def State.writePack (s : State) (n e : Nat) : State :=
  let x := s.stn n
  match x.between, x.duePack e with
  | true, some j =>
    let d := x.core.finishDither j.gb j.ng 512 j.words
    let b := packBlock j.plane j.uns j.w j.sout j.xs d.2
    let s := s.modCore n fun _ => { d.1 with packs := d.1.packs.erase j }
    (s.modStn n fun x => x.sput j.addr b.1).modCore n fun c => c.fmt b.2
  | _, _ => s

/-- VPACK_BLOCK_WRITE (R246). -/
def vpackBlockWrite (n e : Nat) (s : State) : State :=
  match (s.stn n).between, (s.stn n).duePack e with
  | true, some j => s.afterIdle n j.due Env.clean fun s => s.writePack n e
  | _, _ => s

/-! ### Ternarisation (R361, R362) -/

/-- Finds the ternarisation unit occupied: status 0x0794. -/
def ternBusy (s : State) (n : Nat) (k : Unit → Issue) : Issue :=
  let c := s.core n
  busy s n (decide (c.tick < c.ternFree)) 0x0794#16 5 .tern (c.ternFree - c.tick) k

/-- VTERN (R361). Of the quotient's flags only a zero τ raises one, LNS_DIVZ, whatever the lanes and the mask (DESIGN CHOICE, log entry 128: R361 names
no flags). -/
def ternOp (n e vd va : Nat) (bad : Bool) (aux : BitVec 35) (env : Env) (i : Instr) (s : State) : State :=
  slotOp n (3 + e) i (fun s =>
    let c := s.core n
    let a := c.vaddr aux 32
    let gb := bits aux.toNat 8 3
    let ng := 2 ^ bits aux.toNat 2 0
    slotIllegal s (bad || decide (bits aux.toNat 13 9 ≠ 0 ∨ bits aux.toNat 2 0 = 7 ∨ 64 < gb + ng)) fun _ =>
    addrCheck s a 32 32 fun _ =>
    match c.task.unnamed gb ng [6] with
    | some g => .stop s { st := 0x0711#16, idx := g, aux := 3 + e, unit := 5 }
    | none =>
      ternBusy s n fun _ =>
      let r := s.sread n (3 + e) a 32 env
      match r.2 with
      | .error x => x
      | .ok bs =>
        let tt := 64 / ng
        let mask := (List.range 256).map fun k => le bs (k / 8) 1 / 2 ^ (k % 8) % 2 == 1
        let j : TernDraw := { engine := e, first := c.tick + 1, last := c.tick + tt, gb := gb, ng := ng, vd := vd,
                              ws := c.vreg e va, tau := c.vscl e, mask := mask, words := [] }
        .ok (r.1.modCore n fun c =>
          { c.fmt { divz := lnsIsZero (c.vscl e) } with terns := c.terns ++ [j], ternFree := c.tick + tt + 1 })) s

/-- The trit that a lane stands for. -/
def tritOf (w : Lns) : Int := if lnsIsZero w then 0 else if lnsSign w then -1 else 1

/-- The bytes of a strip from 512 trits (R28, R31, R361): `owners` is the 64-bit owner map of a merged strip. -/
def ternStrip (mrg : Bool) (gexp : Nat) (owners : Nat) (ts : List Int) : List Byte :=
  let base := stripOf ts (BitVec.ofNat 8 gexp)
  if !mrg then base
  else
    let own (r : Nat) : Nat := if ts.getD r 0 ≠ 0 then owners / 2 ^ (r / 8) % 2 else 0
    base ++ (List.range 64).map fun m =>
      BitVec.ofNat 8 ((List.range 8).foldl (fun a i => a + own (8 * m + i) * 2 ^ i) 0)

/-- The count word of a strip (R34): the non-zero trits of owner A and of owner B. -/
def countWord (mrg : Bool) (owners : Nat) (ts : List Int) : Nat :=
  let isB (r : Nat) : Bool := mrg && owners / 2 ^ (r / 8) % 2 == 1
  let nz := (List.range 512).filter fun r => ts.getD r 0 != 0
  (nz.filter fun r => !isB r).length + (nz.filter isB).length * 1024

/-- The owner map S[VD + 1] : S[VD]. -/
def StCore.ownerMap (c : StCore) (vd : Nat) : Nat := (c.sreg (vd + 1)).toNat * 2 ^ 32 + (c.sreg vd).toNat

/-- A strip that the unit writes in tick t + 2 (R362). -/
def stripOut (n e vd : Nat) (bad : Bool) (aux : BitVec 35) (trits : StCore → List Int) (place : StCore → StCore) (i : Instr)
    (s : State) : State :=
  slotOp n (3 + e) i (fun s =>
    let c := s.core n
    let a := c.vaddr aux 32
    let mrg := bits aux.toNat 13 13 == 1
    slotIllegal s (bad || decide (bits aux.toNat 5 0 ≠ 0) || (if mrg then decide (vd % 2 = 1) else decide (vd ≠ 0)))
      fun _ =>
    addrCheck s a (if mrg then 168 else 104) 8 fun _ =>
    ternBusy s n fun _ =>
    let ts := trits c
    let ow := if mrg then c.ownerMap vd else 0
    let j : StripJob := { due := c.tick + 2, engine := e, addr := a, bytes := ternStrip mrg (bits aux.toNat 12 6) ow ts }
    .ok (s.modCore n fun c =>
      let c := place c
      { c with strips := c.strips ++ [j], ternFree := c.tick + 3, tcount := fput c.tcount e (countWord mrg ow ts) })) s

/-- The trits of rows [0, 511] that L[VA] and L[VA + 1] hold. -/
def StCore.tritPair (c : StCore) (e va : Nat) : List Int := ((c.vreg e va) ++ (c.vreg e (va + 1))).map tritOf

/-- VTSTRIP's column of the transpose buffer. -/
def StCore.placeColumn (c : StCore) (vb : Nat) (ts : List Int) : StCore :=
  let v := (c.sreg vb).toNat
  if bits v 9 9 = 1 then { c with tbuf := fput c.tbuf (bits v 8 0) ts } else c

/-- Row `r` of the transpose buffer. -/
def StCore.bufferRow (c : StCore) (r : Nat) : List Int := (List.range 512).map fun k => (tget [] c.tbuf k).getD r 0

/-- VTCNT (R361): a write of part of a word, whose word is read and checked first (R253). -/
def vtcntOp (n e : Nat) (bad : Bool) (aux : BitVec 35) (env : Env) (i : Instr) (s : State) : State :=
  slotOp n (3 + e) i (fun s =>
    let c := s.core n
    let a := c.vaddr aux 4
    slotIllegal s (bad || decide (bits aux.toNat 13 0 ≠ 0)) fun _ =>
    addrCheck s a 4 4 fun _ =>
    ternBusy s n fun _ =>
    let r := s.checked n (3 + e) a 4 env []
    match r.2 with
    | .error x => x
    | .ok _ => .ok (r.1.swrite n (3 + e) a (natLe 4 (tget 0 c.tcount e)))) s

/-! ### The meanings -/

def nz {k : Nat} (x : BitVec k) : Bool := x != 0

def execVnop (n : Stn) (e : Fin 4) (code : BitVec 6) (vd va vb : BitVec 5) (aux : BitVec 35) (s : State)
    : Host.Outcome State Fault Refusal :=
  .next (slotOp n (3 + e) (.vnop n e code vd va vb aux)
    (fun s => slotIllegal s (nz code || nz vd || nz va || nz vb || nz aux) fun _ => .ok s) s)
def execVadd (n : Stn) (e : Fin 4) (vd va vb : BitVec 5) (aux : BitVec 35) (s : State) : Host.Outcome State Fault Refusal :=
  .next (laneOp n e vd.toNat 3 (nz aux) (lanes2 lnsAdd e va.toNat vb.toNat) (.vadd n e vd va vb aux) s)
def execVsub (n : Stn) (e : Fin 4) (vd va vb : BitVec 5) (aux : BitVec 35) (s : State) : Host.Outcome State Fault Refusal :=
  .next (laneOp n e vd.toNat 3 (nz aux) (lanes2 lnsSub e va.toNat vb.toNat) (.vsub n e vd va vb aux) s)
def execVmul (n : Stn) (e : Fin 4) (vd va vb : BitVec 5) (aux : BitVec 35) (s : State) : Host.Outcome State Fault Refusal :=
  .next (laneOp n e vd.toNat 1 (nz aux) (lanes2 lnsMul e va.toNat vb.toNat) (.vmul n e vd va vb aux) s)
def execVdiv (n : Stn) (e : Fin 4) (vd va vb : BitVec 5) (aux : BitVec 35) (s : State) : Host.Outcome State Fault Refusal :=
  .next (laneOp n e vd.toNat 1 (nz aux) (lanes2 lnsDiv e va.toNat vb.toNat) (.vdiv n e vd va vb aux) s)
def execVmax (n : Stn) (e : Fin 4) (vd va vb : BitVec 5) (aux : BitVec 35) (s : State) : Host.Outcome State Fault Refusal :=
  .next (laneOp n e vd.toNat 1 (nz aux) (lanes2 laneMax e va.toNat vb.toNat) (.vmax n e vd va vb aux) s)
def execVmin (n : Stn) (e : Fin 4) (vd va vb : BitVec 5) (aux : BitVec 35) (s : State) : Host.Outcome State Fault Refusal :=
  .next (laneOp n e vd.toNat 1 (nz aux) (lanes2 laneMin e va.toNat vb.toNat) (.vmin n e vd va vb aux) s)
def execVneg (n : Stn) (e : Fin 4) (vd va vb : BitVec 5) (aux : BitVec 35) (s : State) : Host.Outcome State Fault Refusal :=
  .next (laneOp n e vd.toNat 1 (nz vb || nz aux) (lanes1 (fun a => (lnsNeg a, {})) e va.toNat) (.vneg n e vd va vb aux) s)
def execVexp2 (n : Stn) (e : Fin 4) (vd va vb : BitVec 5) (aux : BitVec 35) (s : State) : Host.Outcome State Fault Refusal :=
  .next (laneOp n e vd.toNat 2 (nz vb || nz aux) (lanes1 lnsExp2 e va.toNat) (.vexp2 n e vd va vb aux) s)
def execVcmpge (n : Stn) (e : Fin 4) (vd va vb : BitVec 5) (aux : BitVec 35) (s : State) : Host.Outcome State Fault Refusal :=
  .next (laneOp n e vd.toNat 1 (nz aux) (lanes2 laneGe e va.toNat vb.toNat) (.vcmpge n e vd va vb aux) s)
def execVbcast (n : Stn) (e : Fin 4) (vd va vb : BitVec 5) (aux : BitVec 35) (s : State) : Host.Outcome State Fault Refusal :=
  .next (laneOp n e vd.toNat 1 (nz vb || nz (aux >>> 8))
    (fun c => (List.replicate 256 (lnsCanon ((c.vreg e va.toNat).getD (bits aux.toNat 7 0) lnsZero)), {})) (.vbcast n e vd va vb aux) s)
def execVimm (n : Stn) (e : Fin 4) (vd va vb : BitVec 5) (aux : BitVec 35) (s : State) : Host.Outcome State Fault Refusal :=
  .next (laneOp n e vd.toNat 1 (nz va || nz vb || nz (aux >>> 16))
    (fun _ => (List.replicate 256 (lnsCanon (aux.truncate 16)), {})) (.vimm n e vd va vb aux) s)
def execVrmax (n : Stn) (e : Fin 4) (vd va vb : BitVec 5) (aux : BitVec 35) (s : State) : Host.Outcome State Fault Refusal :=
  .next (laneOp n e vd.toNat 8 (nz vb || nz aux) (fun c => (rmaxOf (c.vreg e va.toNat), {})) (.vrmax n e vd va vb aux) s)
def execVrsum (n : Stn) (e : Fin 4) (vd va vb : BitVec 5) (aux : BitVec 35) (s : State) : Host.Outcome State Fault Refusal :=
  .next (laneOp n e vd.toNat 24 (nz vb || nz aux)
    (fun c => let r := sumLevels 8 (c.vreg e va.toNat); (firstLanes (r.1.map lnsCanon), r.2)) (.vrsum n e vd va vb aux) s)
def execVsets (n : Stn) (e : Fin 4) (vd va vb : BitVec 5) (aux : BitVec 35) (s : State) : Host.Outcome State Fault Refusal :=
  .next (slotOp n (3 + e) (.vsets n e vd va vb aux) (fun s =>
    slotIllegal s (nz vd || nz va || nz vb || nz (aux >>> 16)) fun _ =>
      .ok (s.modCore n fun c => c.result 1 (.vscale e) ((lnsCanon (aux.truncate 16)).zeroExtend 64))) s)
def execVld (n : Stn) (e : Fin 4) (vd va vb : BitVec 5) (aux : BitVec 35) (env : Env) (s : State)
    : Host.Outcome State Fault Refusal :=
  .next (loadOp n e vd.toNat 3 (nz va || nz vb) aux 512 env (fun _ bs => lanesOfBytes bs) (.vld n e vd va vb aux env) s)
def execVst (n : Stn) (e : Fin 4) (vd va vb : BitVec 5) (aux : BitVec 35) (s : State) : Host.Outcome State Fault Refusal :=
  .next (storeOp n e va.toNat (nz vd || nz vb) aux (.vst n e vd va vb aux) s)
def execVmskld (n : Stn) (e : Fin 4) (vd va vb : BitVec 5) (aux : BitVec 35) (env : Env) (s : State)
    : Host.Outcome State Fault Refusal :=
  .next (loadOp n e vd.toNat 3 (nz vb) aux 32 env (fun c bs => maskLanes (c.vreg e va.toNat) bs)
    (.vmskld n e vd va vb aux env) s)
def execVcvt (n : Stn) (e : Fin 4) (vd va vb : BitVec 5) (aux : BitVec 35) (env : Env) (s : State)
    : Host.Outcome State Fault Refusal :=
  .next (cvtOp n e vd.toNat (nz va || nz vb) aux env (.vcvt n e vd va vb aux env) s)
def execVpack (n : Stn) (e : Fin 4) (vd va vb : BitVec 5) (aux : BitVec 35) (s : State) : Host.Outcome State Fault Refusal :=
  .next (packOp n e va.toNat vb.toNat (nz vd) aux (.vpack n e vd va vb aux) s)
def execVpackBlockWrite (n : Stn) (e : Fin 4) (s : State) : Host.Outcome State Fault Refusal := .next (vpackBlockWrite n e s)
def execVtern (n : Stn) (e : Fin 4) (vd va vb : BitVec 5) (aux : BitVec 35) (env : Env) (s : State)
    : Host.Outcome State Fault Refusal :=
  .next (ternOp n e vd.toNat va.toNat (nz vb) aux env (.vtern n e vd va vb aux env) s)
def execVtstrip (n : Stn) (e : Fin 4) (vd va vb : BitVec 5) (aux : BitVec 35) (s : State) : Host.Outcome State Fault Refusal :=
  .next (stripOut n e vd.toNat (decide (va.toNat % 2 = 1)) aux (fun c => c.tritPair e va.toNat)
    (fun c => c.placeColumn vb.toNat (c.tritPair e va.toNat)) (.vtstrip n e vd va vb aux) s)
def execVtrow (n : Stn) (e : Fin 4) (vd va vb : BitVec 5) (aux : BitVec 35) (s : State) : Host.Outcome State Fault Refusal :=
  .next (stripOut n e vd.toNat (nz va) aux (fun c => c.bufferRow (bits (c.sreg vb.toNat).toNat 8 0)) id
    (.vtrow n e vd va vb aux) s)
def execVtcnt (n : Stn) (e : Fin 4) (vd va vb : BitVec 5) (aux : BitVec 35) (env : Env) (s : State)
    : Host.Outcome State Fault Refusal :=
  .next (vtcntOp n e (nz vd || nz va || nz vb) aux env (.vtcnt n e vd va vb aux env) s)

end Sys2Proof.Machine
end

