-- ==== Sys2Proof/Machine/Scalar.lean ====
section
/-!
DEFINITION. The scalar slot (R239), the stream registers that SSET writes (R240), and the DMA slot with the completion
of its transfers (R248).
-/

namespace Sys2Proof.Machine

/-! ### Scalar operations -/

/-- IMM[15:0], sign-extended to 32 bits. -/
def sextImm (imm : BitVec 27) : BitVec 32 := (imm.truncate 16 : BitVec 16).signExtend 32

/-- An ALU operation: S[SD] after one tick (R219, R239). -/
def aluOp (n sd : Nat) (bad : Bool) (f : StCore → BitVec 32) (i : Instr) (s : State) : State :=
  slotOp n 7 i (fun s =>
    slotIllegal s bad fun _ => .ok (s.modCore n fun c => c.result 1 (.scalar sd) ((f c).zeroExtend 64))) s

/-- The address of SLD and SST: S[SA] + 4 × sext, modulo 2^32. -/
def StCore.saddr (c : StCore) (sa : Nat) (imm : BitVec 27) : Nat := (c.sreg sa + 4#32 * sextImm imm).toNat

/-- SLD (R239, R550). -/
def sldOp (n sd sa : Nat) (imm : BitVec 27) (bad : Bool) (env : Env) (i : Instr) (s : State) : State :=
  slotOp n 7 i (fun s =>
    let c := s.core n
    let a := c.saddr sa imm
    slotIllegal s (bad || nz (imm >>> 16)) fun _ =>
    addrCheck s a 4 4 fun _ =>
    let r := s.sread n 7 a 4 env
    match r.2 with
    | .error x => x
    | .ok bs => .ok (r.1.modCore n fun c => c.result (c.latency a 4 3) (.scalar sd) (BitVec.ofNat 64 (leNat bs)))) s

/-- SST: a write of part of a word, whose word is read and checked first (R239, R253, R550). -/
def sstOp (n sa sb : Nat) (imm : BitVec 27) (bad : Bool) (env : Env) (i : Instr) (s : State) : State :=
  slotOp n 7 i (fun s =>
    let c := s.core n
    let a := c.saddr sa imm
    slotIllegal s (bad || nz (imm >>> 16)) fun _ =>
    addrCheck s a 4 4 fun _ =>
    let r := s.checked n 7 a 4 env []
    match r.2 with
    | .error x => x
    | .ok _ => .ok (r.1.swrite n 7 a (natLe 4 (c.sreg sb).toNat))) s

/-- Whether a value sets a bit that R240 reserves for the stream register `k` and the KIND it writes. -/
def streamReserved (k : Nat) (v : BitVec 64) : Bool :=
  let x := v.toNat
  let kind := srKind v
  decide (bits x 29 29 ≠ 0 ∨ bits x 24 20 ≠ 0 ∨ (kind ≠ 1 ∧ srHidx v ≠ 0)
    ∨ (if 4 ≤ k ∧ k < 8 then (if kind = 3 then False else if kind = 0 then bits x 19 0 ≠ 0 else bits x 19 16 ≠ 0)
       else bits x 19 0 ≠ 0))

/-- SSET (R239, R240): the stream register takes its value after two ticks (R219). -/
def ssetOp (n sa sb : Nat) (imm : BitVec 27) (bad : Bool) (i : Instr) (s : State) : State :=
  slotOp n 7 i (fun s =>
    let c := s.core n
    let k := bits imm.toNat 3 0
    let v : BitVec 64 := (c.sreg sb).zeroExtend 64 <<< 32 ||| (c.sreg sa).zeroExtend 64
    slotIllegal s (bad || nz (imm >>> 4) || decide (12 ≤ k) || streamReserved k v) fun _ =>
      .ok (s.modCore n fun c => c.result 2 (.stream k) v)) s

/-- SPOS (R239): the position as it stands at the start of the tick (R233). -/
def sposOp (n sd : Nat) (imm : BitVec 27) (bad : Bool) (i : Instr) (s : State) : State :=
  slotOp n 7 i (fun s =>
    let k := bits imm.toNat 3 0
    let p := srPos ((s.stn n).start.stream k)
    slotIllegal s (bad || nz (imm >>> 4) || decide (12 ≤ k)) fun _ =>
      .ok (s.modCore n fun c => c.result 1 (.scalar sd) (BitVec.ofNat 64 p))) s

/-! ### DMA -/

/-- The banks that `len` bytes from `a` touch (R220, R228). -/
def banksOf (im : Image) (a len : Nat) : List Nat :=
  (List.range 32).filter fun b =>
    let m := 2 ^ im.code b
    let b0 := m * (b / m)
    let lo := max a (b0 * 786432)
    let hi := min (a + len) ((b0 + m) * 786432)
    decide (lo < hi) &&
      (let l0 := (lo - b0 * 786432) / 128
       let l1 := (hi - 1 - b0 * 786432) / 128
       decide (l0 + (b - b0 + m - l0 % m) % m ≤ l1))

/-- Whether two byte ranges overlap. -/
def overlaps (a b len : Nat) : Bool := decide (a < b + len ∧ b < a + len)

/-- The scratchpad ranges of a transfer: address pairs of MIN, MOUT and MCOPY. -/
def dmaRanges (mop a b : Nat) : List Nat := if mop = 3 then [a, b] else [a]

/-- MIN, MOUT and MCOPY (R248): the checks in their order, then the transfer is in flight under its tag. -/
def dmaBody (n mop sa sb sc tag rsv : Nat) (s : State) : Issue :=
  let c := s.core n
  let a := (c.sreg sa).toNat
  let b := (c.sreg sb).toNat
  let len := (c.sreg sc).toNat
  let range := bits (c.sreg (sb + 1)).toNat 11 0 * 2 ^ 32 + b
  let rs := dmaRanges mop a b
  slotIllegal s (decide (rsv ≠ 0 ∨ (mop ≠ 3 ∧ sb = 31)) || (mop == 3 && overlaps a b len)) fun _ =>
  failIf (decide (len % 32 ≠ 0 ∨ len < 32 ∨ 16777216 < len)) s { st := 0x0762#16 } fun _ =>
  let bad := rs.find? fun x => decide (x % 32 ≠ 0) || !inScratch x len
  failIf bad.isSome s { st := 0x0762#16, addr := scrAddr (bad.getD 0) } fun _ =>
  failIf (mop != 3 && decide (range % 32 ≠ 0)) s { st := 0x0762#16, addr := range } fun _ =>
  failIf (c.dmas.any fun d => d.tag == tag && !d.done) s { st := 0x0766#16 } fun _ =>
  let win := rs.find? fun x => decide (windowBase < x + len)
  failIf (!c.task.kat && win.isSome) s { st := 0x0764#16, addr := scrAddr (max windowBase (win.getD 0)) } fun _ =>
  -- the transfer reaches its first page at once
  let pg := if mop = 3 then none else s.pageCheck (mop == 2) c.task.desc.parcel (rpageOf range)
  failIf pg.isSome s { st := pg.getD 0, addr := range, unit := 5 } fun _ =>
  let d : Dma := { tag := tag, mop := mop, banks := (rs.flatMap fun x => banksOf c.task.image x len).eraseDups, spa := a,
                   spb := if mop = 3 then b else 0, range := if mop = 3 then 0 else range, len := len, moved := 0,
                   done := false }
  .ok (s.modCore n fun c => { c with dmas := c.dmas ++ [d] })

def dmaOp (n mop sa sb sc tag rsv : Nat) (i : Instr) (s : State) : State :=
  slotOp n 8 i (dmaBody n mop sa sb sc tag rsv) s

/-- DMA_TRANSFER_COMPLETE (R248): the bytes, for an MCOPY those that its ticks have not copied, are copied and the tag leaves flight; a page that may not be reached ends the
task when the transfer reaches it (R296). A page that moves holds an MOUT up until its flip (R317). -/
def dmaTransferComplete (n tag : Nat) (env : Env) (s : State) : State :=
  let x := s.stn n
  match x.snap.isNone && (x.mode == .running || x.mode == .rerun), x.core.dmas.find? fun d => d.tag == tag && !d.done with
  | true, some d =>
    let fin (s : State) : State := s.modCore n fun c =>
      { c with dmas := c.dmas.map fun e => if e = d then { e with done := true } else e }
    let p := x.core.task.desc.parcel
    let fault (s : State) (f : Status × Nat) : State := s.endTask n { st := f.1, addr := f.2, unit := 5 } x.core.tick
    if d.mop = 1 then
      let r := s.stnRead n p d.range d.len env
      match r.2 with
      | .ok bs => fin (r.1.modStn n fun x => x.sput d.spa bs)
      | .error f => fault r.1 f
    else
      let r := s.checked n 8 (d.spa + d.moved) (d.len - d.moved) env (x.sbytes (d.spa + d.moved) (d.len - d.moved))
      match r.2 with
      | .error (.rerun s w) => s.beginRerun n w
      | .error (.stop s f) => s.endTask n f x.core.tick
      | .error _ => s
      | .ok bs =>
        if d.mop = 3 then fin (r.1.modStn n fun x => x.sput (d.spb + d.moved) bs)
        else
          match r.1.writeCheck n p d.range d.len with
          | some f => fault (r.1.countRefused f) f
          | none =>
            if r.1.movingAt d.range d.len then s
            else
            let w := r.1.post n d.range bs env.rmw
            match w.2 with
            | some f => fault w.1 f
            | none => fin w.1
  | _, _ => s

/-! ### The meanings -/

def execSnop (n : Stn) (code : BitVec 6) (sd sa sb : BitVec 5) (imm : BitVec 27) (s : State)
    : Host.Outcome State Fault Refusal :=
  .next (slotOp n 7 (.snop n code sd sa sb imm)
    (fun s => slotIllegal s (nz code || nz sd || nz sa || nz sb || nz imm) fun _ => .ok s) s)
def execSadd (n : Stn) (sd sa sb : BitVec 5) (imm : BitVec 27) (s : State) : Host.Outcome State Fault Refusal :=
  .next (aluOp n sd.toNat (nz imm) (fun c => c.sreg sa.toNat + c.sreg sb.toNat) (.sadd n sd sa sb imm) s)
def execSsub (n : Stn) (sd sa sb : BitVec 5) (imm : BitVec 27) (s : State) : Host.Outcome State Fault Refusal :=
  .next (aluOp n sd.toNat (nz imm) (fun c => c.sreg sa.toNat - c.sreg sb.toNat) (.ssub n sd sa sb imm) s)
def execSand (n : Stn) (sd sa sb : BitVec 5) (imm : BitVec 27) (s : State) : Host.Outcome State Fault Refusal :=
  .next (aluOp n sd.toNat (nz imm) (fun c => c.sreg sa.toNat &&& c.sreg sb.toNat) (.sand n sd sa sb imm) s)
def execSor (n : Stn) (sd sa sb : BitVec 5) (imm : BitVec 27) (s : State) : Host.Outcome State Fault Refusal :=
  .next (aluOp n sd.toNat (nz imm) (fun c => c.sreg sa.toNat ||| c.sreg sb.toNat) (.sor n sd sa sb imm) s)
def execSxor (n : Stn) (sd sa sb : BitVec 5) (imm : BitVec 27) (s : State) : Host.Outcome State Fault Refusal :=
  .next (aluOp n sd.toNat (nz imm) (fun c => c.sreg sa.toNat ^^^ c.sreg sb.toNat) (.sxor n sd sa sb imm) s)
def execSshl (n : Stn) (sd sa sb : BitVec 5) (imm : BitVec 27) (s : State) : Host.Outcome State Fault Refusal :=
  .next (aluOp n sd.toNat (nz imm) (fun c => c.sreg sa.toNat <<< ((c.sreg sb.toNat).toNat % 32)) (.sshl n sd sa sb imm) s)
def execSshr (n : Stn) (sd sa sb : BitVec 5) (imm : BitVec 27) (s : State) : Host.Outcome State Fault Refusal :=
  .next (aluOp n sd.toNat (nz imm) (fun c => c.sreg sa.toNat >>> ((c.sreg sb.toNat).toNat % 32)) (.sshr n sd sa sb imm) s)
def execSaddi (n : Stn) (sd sa sb : BitVec 5) (imm : BitVec 27) (s : State) : Host.Outcome State Fault Refusal :=
  .next (aluOp n sd.toNat (nz sb || nz (imm >>> 16)) (fun c => c.sreg sa.toNat + sextImm imm) (.saddi n sd sa sb imm) s)
def execSli (n : Stn) (sd sa sb : BitVec 5) (imm : BitVec 27) (s : State) : Host.Outcome State Fault Refusal :=
  .next (aluOp n sd.toNat (nz sa || nz sb) (fun _ => imm.zeroExtend 32) (.sli n sd sa sb imm) s)
def execSlih (n : Stn) (sd sa sb : BitVec 5) (imm : BitVec 27) (s : State) : Host.Outcome State Fault Refusal :=
  .next (aluOp n sd.toNat (nz sa || nz sb || nz (imm >>> 16))
    (fun c => (imm.truncate 16 : BitVec 16).zeroExtend 32 <<< 16 ||| (c.sreg sd.toNat &&& 0xFFFF#32))
    (.slih n sd sa sb imm) s)
def execSld (n : Stn) (sd sa sb : BitVec 5) (imm : BitVec 27) (env : Env) (s : State) : Host.Outcome State Fault Refusal :=
  .next (sldOp n sd.toNat sa.toNat imm (nz sb) env (.sld n sd sa sb imm env) s)
def execSst (n : Stn) (sd sa sb : BitVec 5) (imm : BitVec 27) (env : Env) (s : State) : Host.Outcome State Fault Refusal :=
  .next (sstOp n sa.toNat sb.toNat imm (nz sd) env (.sst n sd sa sb imm env) s)
def execSset (n : Stn) (sd sa sb : BitVec 5) (imm : BitVec 27) (s : State) : Host.Outcome State Fault Refusal :=
  .next (ssetOp n sa.toNat sb.toNat imm (nz sd) (.sset n sd sa sb imm) s)
def execSpos (n : Stn) (sd sa sb : BitVec 5) (imm : BitVec 27) (s : State) : Host.Outcome State Fault Refusal :=
  .next (sposOp n sd.toNat imm (nz sa || nz sb) (.spos n sd sa sb imm) s)
def execMnop (n : Stn) (code : BitVec 4) (sa sb sc : BitVec 5) (tag : BitVec 4) (rsv : BitVec 17) (s : State)
    : Host.Outcome State Fault Refusal :=
  .next (slotOp n 8 (.mnop n code sa sb sc tag rsv)
    (fun s => slotIllegal s (nz code || nz sa || nz sb || nz sc || nz tag || nz rsv) fun _ => .ok s) s)
def execMin (n : Stn) (sa sb sc : BitVec 5) (tag : BitVec 4) (rsv : BitVec 17) (s : State) : Host.Outcome State Fault Refusal :=
  .next (dmaOp n 1 sa.toNat sb.toNat sc.toNat tag.toNat rsv.toNat (.min n sa sb sc tag rsv) s)
def execMout (n : Stn) (sa sb sc : BitVec 5) (tag : BitVec 4) (rsv : BitVec 17) (s : State)
    : Host.Outcome State Fault Refusal :=
  .next (dmaOp n 2 sa.toNat sb.toNat sc.toNat tag.toNat rsv.toNat (.mout n sa sb sc tag rsv) s)
def execMcopy (n : Stn) (sa sb sc : BitVec 5) (tag : BitVec 4) (rsv : BitVec 17) (s : State)
    : Host.Outcome State Fault Refusal :=
  .next (dmaOp n 3 sa.toNat sb.toNat sc.toNat tag.toNat rsv.toNat (.mcopy n sa sb sc tag rsv) s)
def execDmaTransferComplete (n : Stn) (tag : BitVec 4) (env : Env) (s : State) : Host.Outcome State Fault Refusal :=
  .next (dmaTransferComplete n tag.toNat env s)

end Sys2Proof.Machine
end

