-- ==== Sys2Proof/Machine/Control.lean ====
section
/-!
DEFINITION. The CTL field (R235 to R238, R248, R254), which closes a bundle, and the events of a Station's time: the
ends of holds, stalls and freezes (R83, R152, R247), the issue duty (R249), re-runs (R256) and scrubs (R258, R259).
-/

namespace Sys2Proof.Machine

/-! ### Control operations -/

def ctlIllegal (s : State) (c : Bool) (k : Unit → Issue) : Issue := failIf c s { st := 0x0767#16 } k

/-- The program counter and the loops after a bundle that opens no loop. -/
def StCore.goOn (c : StCore) : StCore :=
  let r := afterBundle c.loops c.pc
  { c with pc := r.1, loops := r.2 }

/-- A control operation of Station `n`: the CTL field is known with the whole bundle, which late bytes of Recon's tick freeze before it issues
(R83, R193). `env` is what Recon's accesses of the tick meet. -/
def ctlOp (n : Nat) (env : Env) (i : Instr) (body : State → Issue) (s : State) : State :=
  slotOp n 10 i (fun s => if (s.core n).reconLate env then .wait .late 0 else body s) s

/-- CNOP; a reserved operation or field stops the task (R235). -/
def cnopOp (n code rsv : Nat) (env : Env) (i : Instr) (s : State) : State :=
  ctlOp n env i (fun s => ctlIllegal s (decide (code ≠ 0 ∨ rsv ≠ 0)) fun _ => s.closeBundle n env StCore.goOn) s

/-- The trip count of a LOOP (R236). -/
def StCore.tripCount (c : StCore) (csrc : Bool) (sc : Nat) (ch : Bool) (imm : Nat) : Nat :=
  if csrc then bits (c.sreg sc).toNat (16 * b2n ch + 15) (16 * b2n ch) else imm

/-- A LOOP's effect on the program: its body is entered, or skipped with no trips (R236). -/
def StCore.enterLoop (c : StCore) (body trips : Nat) : StCore :=
  if trips = 0 then
    let r := afterBundle c.loops (c.pc + body)
    { c with pc := r.1, loops := r.2 }
  else { c with pc := c.pc + 1, loops := { pc := c.pc, body := body, trips := trips } :: c.loops }

/-- LOOP (R236, R237). -/
def loopOp (n body : Nat) (csrc : Bool) (sc : Nat) (ch : Bool) (imm : Nat) (env : Env) (i : Instr)
    (s : State) : State :=
  ctlOp n env i (fun s =>
    let c := s.core n
    let past := match c.loops with
      | l :: _ => decide (l.pc + l.body < c.pc + body)
      | [] => false
    ctlIllegal s ((csrc && decide (imm ≠ 0)) || (!csrc && (decide (sc ≠ 0) || ch)) || decide (4 ≤ c.loops.length) || past
      || decide (c.task.image.nb ≤ c.pc + body)) fun _ =>
    let trips := c.tripCount csrc sc ch imm
    s.closeBundle n env fun c => c.enterLoop body trips) s

/-- The ticks that a STEP is held (R254): until the tree is empty, no window is open, no load is in its ticks, and the
drain unit, the pack stages and Recon are idle. -/
def StCore.stepHold (c : StCore) : Nat :=
  let m := c.tree.foldl (fun m p => max m (p.u + 9 - c.atick)) 0
  let m := c.bruns.foldl (fun m b => max m (b.lastTick + 1 - c.atick)) m
  let m := c.drains.foldl (fun m j => max m (j.due + 1 - c.tick)) (max m (max c.loadLeft (c.drainFree - c.tick)))
  let m := c.fills.foldl (fun m j => max m (j.due + 1 - c.tick)) m
  let m := c.packs.foldl (fun m j => max m (j.due + 1 - c.tick)) m
  let m := c.recs.foldl (fun m j => max m (j.due + 1 - c.tick)) m
  let m := max m (c.recChk - 1 - c.tick)
  c.fins.foldl (fun m j => max m (j.due + 1 - c.tick)) m

/-- A flush of posted writes that may stop the task (R311, R384). -/
def State.flushOr (s : State) (n : Nat) (env : Env) (k : State → Issue) : Issue :=
  let r := s.flushAll n env.rmw
  match r.2 with
  | some f => .stop r.1 { st := f.1, addr := f.2, unit := 5 }
  | none => k r.1

/-- STEP (R254). -/
def stepOp (n rsv : Nat) (env : Env) (i : Instr) (s : State) : State :=
  ctlOp n env i (fun s =>
    let c0 := (s.stn n).start
    ctlIllegal s (decide (rsv ≠ 0)) fun _ =>
    if 0 < c0.stepHold then .wait .step c0.stepHold
    else if c0.dmas.any fun d => !d.done then .wait (.dwait 0xFFFF) 0
    else
      ctlIllegal s (c0.union != 0) fun _ =>
      s.flushOr n env fun s => s.closeBundle n env fun c => { c.goOn with saved := c0.newStep, stepped := true }) s

/-- DWAIT (R248): the transfers it observes no longer hold their banks after its tick (R228). -/
def dwaitOp (n mask rsv : Nat) (env : Env) (i : Instr) (s : State) : State :=
  ctlOp n env i (fun s =>
    let c := s.core n
    let named (d : Dma) : Bool := mask / 2 ^ d.tag % 2 == 1
    ctlIllegal s (decide (rsv ≠ 0)) fun _ =>
    if c.dmas.any fun d => named d && !d.done then .wait (.dwait mask) 0
    else s.closeBundle n env fun c => { c.goOn with dmas := c.dmas.filter fun d => !named d }) s

/-- END (R238): the bundle's other slots issue, and no bundle after it. -/
def endOp (n rsv : Nat) (env : Env) (i : Instr) (s : State) : State :=
  ctlOp n env i (fun s =>
    ctlIllegal s (decide (rsv ≠ 0)) fun _ =>
    s.flushOr n env fun s => s.closeBundle n env fun c => { c with task := { c.task with ended := true, endTick := c.tick - 1 } }) s

/-! ### Meanings of the CTL field -/

def execCnop (n : Stn) (code : BitVec 4) (rsv : BitVec 36) (env : Env) (s : State) : Host.Outcome State Fault Refusal :=
  .next (cnopOp n code.toNat rsv.toNat env (.cnop n code rsv env) s)
def execLoop (n : Stn) (bm1 : BitVec 12) (csrc : Bool) (sc : BitVec 5) (ch : Bool) (imm : BitVec 17) (env : Env) (s : State)
    : Host.Outcome State Fault Refusal :=
  .next (loopOp n (bm1.toNat + 1) csrc sc.toNat ch imm.toNat env (.loop n bm1 csrc sc ch imm env) s)
def execStep (n : Stn) (rsv : BitVec 36) (env : Env) (s : State) : Host.Outcome State Fault Refusal :=
  .next (stepOp n rsv.toNat env (.step n rsv env) s)
def execDwait (n : Stn) (mask : BitVec 16) (rsv : BitVec 20) (env : Env) (s : State) : Host.Outcome State Fault Refusal :=
  .next (dwaitOp n mask.toNat rsv.toNat env (.dwait n mask rsv env) s)
def execEndProg (n : Stn) (rsv : BitVec 36) (env : Env) (s : State) : Host.Outcome State Fault Refusal :=
  .next (endOp n rsv.toNat env (.endProg n rsv env) s)

/-! ### A waiting bundle proceeds -/

/-- The state that an outcome leaves. -/
def leave (s : State) : Host.Outcome State Fault Refusal → State
  | .next t => t
  | .fault _ => s
  | .refused _ => s

/-- Offers a slot operation of a waiting bundle again. -/
def runSlot (i : Instr) (s : State) : State :=
  leave s (match i with
    | .anop n l k r => execAnop n l k r s
    | .amac n a b c d e => execAmac n a b c d e s
    | .aloadd n a b c d e f g => execAloadd n a b c d e f g s
    | .aloadm n a b c d e f g => execAloadm n a b c d e f g s
    | .bload n a b c d e f g => execBload n a b c d e f g s
    | .brun n a b c d e f g h k => execBrun n a b c d e f g h k s
    | .dnop n k r => execDnop n k r s
    | .drain n a b c d e f g h k l => execDrain n a b c d e f g h k l s
    | .dred n a b c d e f g h k => execDred n a b c d e f g h k s
    | .dinit n a b c d e f => execDinit n a b c d e f s
    | .dfill n a b c d => execDfill n a b c d s
    | .rnop n k r => execRnop n k r s
    | .rpred n a b c d e f => execRpred n a b c d e f s
    | .rsel n a b c d e f => execRsel n a b c d e f s
    | .rfin n a b c d e => execRfin n a b c d e s
    | .rchk n a b c d e f => execRchk n a b c d e f s
    | .vnop n e k a b c d => execVnop n e k a b c d s
    | .vadd n e a b c d => execVadd n e a b c d s
    | .vsub n e a b c d => execVsub n e a b c d s
    | .vmul n e a b c d => execVmul n e a b c d s
    | .vdiv n e a b c d => execVdiv n e a b c d s
    | .vmax n e a b c d => execVmax n e a b c d s
    | .vmin n e a b c d => execVmin n e a b c d s
    | .vneg n e a b c d => execVneg n e a b c d s
    | .vexp2 n e a b c d => execVexp2 n e a b c d s
    | .vcmpge n e a b c d => execVcmpge n e a b c d s
    | .vbcast n e a b c d => execVbcast n e a b c d s
    | .vimm n e a b c d => execVimm n e a b c d s
    | .vrmax n e a b c d => execVrmax n e a b c d s
    | .vrsum n e a b c d => execVrsum n e a b c d s
    | .vsets n e a b c d => execVsets n e a b c d s
    | .vld n e a b c d v => execVld n e a b c d v s
    | .vst n e a b c d => execVst n e a b c d s
    | .vmskld n e a b c d v => execVmskld n e a b c d v s
    | .vcvt n e a b c d v => execVcvt n e a b c d v s
    | .vpack n e a b c d => execVpack n e a b c d s
    | .vtern n e a b c d v => execVtern n e a b c d v s
    | .vtstrip n e a b c d => execVtstrip n e a b c d s
    | .vtrow n e a b c d => execVtrow n e a b c d s
    | .vtcnt n e a b c d v => execVtcnt n e a b c d v s
    | .snop n k a b c d => execSnop n k a b c d s
    | .sadd n a b c d => execSadd n a b c d s
    | .ssub n a b c d => execSsub n a b c d s
    | .sand n a b c d => execSand n a b c d s
    | .sor n a b c d => execSor n a b c d s
    | .sxor n a b c d => execSxor n a b c d s
    | .sshl n a b c d => execSshl n a b c d s
    | .sshr n a b c d => execSshr n a b c d s
    | .saddi n a b c d => execSaddi n a b c d s
    | .sli n a b c d => execSli n a b c d s
    | .slih n a b c d => execSlih n a b c d s
    | .sld n a b c d v => execSld n a b c d v s
    | .sst n a b c d v => execSst n a b c d v s
    | .sset n a b c d => execSset n a b c d s
    | .spos n a b c d => execSpos n a b c d s
    | .mnop n k a b c d e => execMnop n k a b c d e s
    | .min n a b c d e => execMin n a b c d e s
    | .mout n a b c d e => execMout n a b c d e s
    | .mcopy n a b c d e => execMcopy n a b c d e s
    | .cnop n k r v => execCnop n k r v s
    | .loop n a b c d e v => execLoop n a b c d e v s
    | .step n r v => execStep n r v s
    | .dwait n a b v => execDwait n a b v s
    | .endProg n r v => execEndProg n r v s
    | _ => .next s)

/-- An operation whose bytes have arrived. -/
def onTime (e : Env) : Env := { e with late := false }

/-- The operations of a waiting bundle once the late bytes are there. -/
def arrived : Instr → Instr
  | .amac n a b c d e => .amac n a b c d (onTime e)
  | .brun n a b c d e f g h k => .brun n a b c d e f g h (onTime k)
  | .aloadd n a b c d e f g => .aloadd n a b c d e f (onTime g)
  | .aloadm n a b c d e f g => .aloadm n a b c d e f (onTime g)
  | .bload n a b c d e f g => .bload n a b c d e f (onTime g)
  | .dfill n a b c d => .dfill n a b c (onTime d)
  | .rpred n a b c d e f => .rpred n a b c d e (onTime f)
  | .rsel n a b c d e f => .rsel n a b c d e (onTime f)
  | .rchk n a b c d e f => .rchk n a b c d e (onTime f)
  | .cnop n k r v => .cnop n k r (onTime v)
  | .loop n a b c d e v => .loop n a b c d e (onTime v)
  | .step n r v => .step n r (onTime v)
  | .dwait n a b v => .dwait n a b (onTime v)
  | .endProg n r v => .endProg n r (onTime v)
  | i => i

/-- Offers the operations of a bundle again, in order. -/
def State.reissue (s : State) (n : Nat) (ops : List (Nat × Instr)) : State :=
  (s.modStn n fun x => { x with held := none }) |> ops.foldl fun s p => runSlot p.2 s

/-- The units that go on during a wait of `k` program ticks are `k` ticks further on (R247). -/
def StCore.shiftUnits (c : StCore) (w : Wait) (k : Nat) : StCore :=
  let c := { c with accs := c.accs.map fun (a : Access) => if a.port ≠ 0 ∧ w.portGoes a.port then { a with tick := a.tick - k } else a }
  let c := if w.loaderGoes then
      ({ c with load := c.load.map (fun (l : Load) => { l with next := l.next - k }), moved := [] }).endLoad
    else c
  let c := if w.drainGoes then
      { c with drains := c.drains.map fun j => { j with due := j.due - k, first := j.first - k },
               fills := c.fills.map fun j => { j with due := j.due - k }, drainFree := c.drainFree - k }
    else c
  let c := if w.reconGoes then
      { c with recs := c.recs.map fun j => { j with next := j.next - k, draw0 := j.draw0 - k, dec0 := j.dec0 - k,
                                                    due := j.due - k },
               fins := c.fins.map fun j => { j with issue := j.issue - k, due := j.due - k },
               recFree := c.recFree - k, recVisible := c.recVisible - k, recChk := c.recChk - k }
    else c
  let c := if w.packGoes then
      { c with packs := c.packs.map fun j => { j with first := j.first - k, free := j.free - k, due := j.due - k } }
    else c
  if w.ternGoes then
    { c with terns := c.terns.map fun j => { j with first := j.first - k, last := j.last - k },
             strips := c.strips.map fun j => { j with due := j.due - k }, ternFree := c.ternFree - k }
  else c

/-- The held bundle proceeds once all ticks of its hold have passed. -/
def State.proceed (s : State) (n : Nat) (h : Held) : State :=
  let s := s.modCore n fun c =>
    let c := (c.countWait h.why h.need).shiftUnits h.why h.need
    { c with atick := c.atick + h.need }
  let s := if 0 < (s.core n).tick then s.lateUnits n ((s.core n).tick - 1) else s
  s.reissue n h.ops

/-- HOLD_END (R152, R247): after the ticks that the hold or stall takes, the bundle proceeds; a fault that the loader found in the tick
before a hold in which it goes on ends the task there (R86), and late bytes of a Recon that goes on keep the bundle held. -/
def holdEnd (n k : Nat) (env : Env) (s : State) : State :=
  let x := s.stn n
  match x.held with
  | none => s
  | some h =>
    if x.mode ≠ .running ∨ h.why.isFreeze ∨ k ≠ h.need ∨ x.overdue then s
    else if h.why.loaderGoes ∧ (x.core.load.bind (·.fault)).isSome then s.loaderFault n x.core.tick
    else if h.why.reconGoes ∧ x.core.reconLate env then s
    else s.afterIdle n (x.core.tick + h.need - 1) env fun s => s.proceed n h

/-- Whether the awaited data of a freeze is there. -/
def StCore.arrivedAll (c : StCore) : Wait → Bool
  | .dwait mask => !c.dmas.any fun d => mask / 2 ^ d.tag % 2 == 1 && !d.done
  | .late => true
  | _ => false

/-- RANGE_DATA_ARRIVAL (R83, R198, R242, R251): a freeze for late data ends after `cycles` cycles. In a hold in which Recon goes on with
the Range's bytes the cycles are counted, and the hold stands. -/
def rangeDataArrival (n cycles : Nat) (s : State) : State :=
  let x := s.stn n
  match x.held with
  | none => s
  | some h =>
    if x.mode ≠ .running then s
    else if h.why.reconGoes ∧ x.core.recs.any fun j => x.core.reconRange j (x.core.tick + h.gone) then
      s.modCore n fun c => c.countLate cycles false
    else if !x.core.arrivedAll h.why then s
    else
      let gather := (match x.core.load with
        | some l => l.gather.isSome
        | none => false) && h.ops.all fun p => isLoadOp p.2
      (s.modCore n fun c => c.countLate cycles gather).reissue n (h.ops.map fun (p : Nat × Instr) => (p.1, arrived p.2))

/-- ISSUE_DUTY_WINDOW (R249, R251): every Running Station of the Facet has frozen in the last 8 − k cycles of a whole window, and the next
begins. -/
def issueDutyWindow (f : Nat) (s : State) : State :=
  let k := 8 - s.dutyOf f
  let s := { s with clk := { s.clk with duty := fput s.clk.duty f 0 } }
  ((List.range 16).map (16 * f + ·)).foldl (fun s n =>
    let x := s.stn n
    if x.mode = .running ∨ x.mode = .rerun then
      s.modCore n fun c => c.countDuty k
    else s) s

/-- RERUN_RESUME (R256): the saved state is put back and the STEP bundle issues again. -/
def rerunResume (n dmaTicks : Nat) (s : State) : State :=
  let x := s.stn n
  if x.mode ≠ .rerun ∨ x.core.dmas.any (fun d => !d.done) then s
  else
    s.modStn n fun x =>
      { x with mode := .running,
               core := (x.core.count .rerunTicks (x.core.tick - x.core.saved.tick + 25 + dmaTicks)).restore }

/-! ### Scrubs (R258, R259) -/

/-- Whether a Station's scratchpad is in SECDED mode: the mode its task started with, or MODE between tasks (R253, R261). -/
def Station.secded (x : Station) : Bool :=
  if x.mode == .idle then x.core.chkCtl.getLsbD 0 else !x.core.task.detect

/-- The wrong bits of the 16 words of a line: those that the reading shows and those that are stored. -/
def Station.lineErrors (x : Station) (bank line : Nat) (errs : List (Nat × Nat)) : List (Nat × Nat) :=
  (List.range 16).map fun w =>
    (w, max ((errs.filter fun e => e.1 % 16 == w).foldl (fun m e => max m e.2) 0) (tget 0 x.flips ((bank * 6144 + line) * 16 + w)))

/-- One word of a line under the scrubber (R258): a corrected word is written again, a double error is left in place. -/
def State.scrubWord (s : State) (n key errs : Nat) : State :=
  let flips (s : State) (k : Nat) : State := s.modStn n fun x => { x with flips := mset 0 x.flips key k }
  if errs = 0 then s
  else if errs = 1 then (flips s 0).modCore n fun c => c.count .chkCorrected
  else if errs = 2 ∨ Config.secdedMiscorrects s.free = false then
    (flips { s with free := s.free + 1 } errs).modCore n fun c => c.count .chkDetected
  else
    let w := natLe 8 (Config.secdedWord s.free).toNat
    ((flips { s with free := s.free + 1 } 0).modStn n fun x =>
      { x with scratch := ((List.range 8).zip w).foldl (fun (t : Tab Byte) (p : Nat × Byte) =>
          mset 0 t (8 * key + p.1) p.2) x.scratch }).modCore n fun c => c.count .chkCorrected

/-- SCRATCH_SCRUB_LINE (R258): the next line of a bank that no port occupies is read; `errs` lists its words with errors
and the number of wrong bits. -/
def scratchScrubLine (n bank : Nat) (errs : List (Nat × Nat)) (s : State) : State :=
  let x := s.stn n
  if x.mode = .scrub ∨ !x.secded ∨ !x.core.chkCtl.getLsbD 1 ∨ x.snap.isSome then s
  else
    let line := tget 0 x.scrubPos bank
    (x.lineErrors bank line errs).foldl (fun s e => s.scrubWord n ((bank * 6144 + line) * 16 + e.1) e.2)
      (s.modStn n fun x => { x with scrubPos := fput x.scrubPos bank ((line + 1) % 6144) })

/-- A Station that the scrub has cleared: scratchpad, slots, planes, registers and generators (R259). -/
def Station.scrubbed (x : Station) : Station :=
  { x with
    scratch := [], flips := [], mode := .idle, cache := [], owner := none, preload := none, prev := none,
    core := { x.core.betweenTasks with slots := [], scalars := [], streams := [], vregs := [], vscale := [], gens := [],
                                       pc := 0, tick := 0, atick := 0,
                                       stnStatus := x.core.stnStatus &&& ~~~ 0x20#32 ||| 1#32 } }

/-- SCRUB_COMPLETE (R259). A Station that is withdrawn or that no Parcel holds enters Off, in ABORT it enters Parked
(R487, R496), else Ready, or stays Running for a waiting task. -/
def scrubComplete (n : Nat) (s : State) : State :=
  if (s.stn n).mode = .scrub then
    let s := s.modStn n Station.scrubbed
    if s.isWithdrawn n ∨ s.holder n = none then s.setSpow n .off
    else if s.pwr.supply = .abort then s.setSpow n .parked
    else if s.hasWork n then s else s.setSpow n .ready
  else s

def execHoldEnd (n : Stn) (k : Nat) (env : Env) (s : State) : Host.Outcome State Fault Refusal :=
  .next (holdEnd n k env s)
def execRangeDataArrival (n : Stn) (cycles : Nat) (s : State) : Host.Outcome State Fault Refusal :=
  .next (rangeDataArrival n cycles s)
def execIssueDutyWindow (f : Facet) (s : State) : Host.Outcome State Fault Refusal := .next (issueDutyWindow f s)
def execRerunResume (n : Stn) (dmaTicks : Nat) (s : State) : Host.Outcome State Fault Refusal :=
  .next (rerunResume n dmaTicks s)
def execScratchScrubLine (n : Stn) (bank : Fin 32) (errs : List (Nat × Nat)) (s : State)
    : Host.Outcome State Fault Refusal :=
  .next (scratchScrubLine n bank errs s)
def execScrubComplete (n : Stn) (s : State) : Host.Outcome State Fault Refusal := .next (scrubComplete n s)

end Sys2Proof.Machine
end

