-- ==== Sys2Proof/Machine/Codec.lean ====
section
/-!
DEFINITION. The KV codec of a Station (R348 to R353): codebooks, decoding into the plain layout and encoding from it.
-/

namespace Sys2Proof.Machine

/-- A codec word (R353). -/
structure CodecWord where
  cmode : Nat
  dst   : Nat
  d     : Nat
  bad   : Bool
  deriving DecidableEq, Repr

def codecWord (w : Lns) : CodecWord :=
  let v := w.toNat
  { cmode := bits v 15 14, dst := bits v 13 10, d := 64 * 2 ^ bits v 9 8, bad := bits v 9 8 == 3 || bits v 7 0 != 0 }

/-- A raw handle of a serving task whose SCALE field is not 0 is a codec handle (R353). -/
def Handle.codec (h : Handle) (kind : Nat) : Bool := kind == 0 && h.hkind == 2 && h.scale != 0

/-- The compressed blocks that a codec handle counts. -/
def Handle.kvBlocks (h : Handle) : Nat := h.nblk % 2 ^ 16

/-- Whether a codec handle is legal among the handles of its task (R353). CMODE 0b00 is no mode of the table and is refused
as well. -/
def codecOk (hs : List Handle) (h : Handle) : Bool :=
  let w := codecWord h.scale
  !w.bad && w.cmode != 0 && h.nblk / 2 ^ 28 == 0 && !(w.cmode == 2 && h.kvBlocks % 8 != 0) &&
  (match hs[w.dst]? with
   | some g => g.scratch && g.plane && g.hkind == 0
   | none => false)

/-! ### Codebooks (R351) -/

/-- A codebook slot: two stages of entries of 8 signed bytes, and the exponent. -/
structure Book where
  s1 : List (List Int)
  s2 : List (List Int)
  e  : Int
  deriving DecidableEq, Repr

def bookOf (bs : List Byte) : Book :=
  let ent (o : Nat) : List (List Int) :=
    (List.range 256).map fun k => (List.range 8).map fun i => sext 8 (le bs (o + 8 * k + i) 1)
  { s1 := ent 0, s2 := ent 2048, e := sext 8 (le bs 4096 1) }

/-- The recipe of a graph instance. -/
def State.recipeOf (s : State) (d : Desc) : Option Recipe :=
  let p := s.parcel d.parcel
  ((p.insts.find? fun i => i.serial == d.serial).bind fun i => (p.recipes.find? fun r => r.1 == i.recipe)).map (·.2)

/-- The address of slot g of a set (R351). -/
def Recipe.bookAddr (r : Recipe) (set g : Nat) : Nat := r.cbbase + (4 * set + g) * 4104

/-- The slots of a set that hold a codebook: those of its first four generations, then all (R354). -/
def slotFilled (newest : Option Nat) (g : Nat) : Bool := match newest with
  | some k => decide (g ≤ k)
  | none => false

/-- The newest generation of a set (R354). -/
def Parcel.newest (p : Parcel) (set : Nat) : Option Nat := (p.books.find? fun b => b.1 == set).map (·.2)

/-- The codebook of a set and slot, none when the slot is empty (R353). -/
def State.book (s : State) (d : Desc) (set g : Nat) : Option Book :=
  match s.recipeOf d with
  | some r => if slotFilled ((s.parcel d.parcel).newest set) g then some (bookOf (s.rbytes (r.bookAddr set g) 4104)) else none
  | none => none

/-! ### Decoding (R350, R351, R353) -/

/-- A sub-vector rebuilt from its indices, in units of 2^E. -/
def Book.vec (b : Book) (i j : Nat) : List Int := ((b.s1.getD i []).zip (b.s2.getD j [])).map fun p => p.1 + p.2

/-- A read of the codec of a Station, of the scratchpad or of the Range, whose checks and errors end the task (R296, R305, R318, R319, R326,
R353). In DETECT mode the codec reads again a scratchpad word in which it finds an error (DESIGN CHOICE, log entry 140: no step has begun or none goes on that
a re-run could repeat), and an error that stands ends the task. -/
def State.codecRead (s : State) (n : Nat) (scratch : Bool) (p a len : Nat) (env : Env) : State × Except Flt (List Byte) :=
  if scratch then
    if !inScratch a len then (s, .error { st := 0x0762#16, addr := scrAddr a, unit := 5 })
    else
      let r := s.checked n 2 a len env ((s.stn n).sbytes a len)
      match r.2 with
      | .ok bs => (r.1, .ok bs)
      | .error (.stop s' f) => (s', .error f)
      | .error (.rerun s' w) =>
        if ((s'.stn n).flipsAt a len).isSome then (s', .error { st := 0x0361#16, addr := scrAddr w, unit := 5 })
        else (s', .ok ((s'.stn n).sbytes a len))
      | .error _ => (r.1, .ok ((s.stn n).sbytes a len))
  else
    let r := s.stnRead n p a len env
    (r.1, match r.2 with
      | .ok bs => .ok bs
      | .error x => .error { st := x.1, addr := x.2, unit := 5 })

/-- The d integers of token i of a compressed block: its key (`v` false) or value. -/
def tokenVec (b : Book) (blk : List Byte) (d i : Nat) (v : Bool) : List Int :=
  (List.range (d / 8)).flatMap fun j =>
    let o := 8 + d / 2 * i + 2 * j + (if v then d / 4 else 0)
    b.vec (le blk o 1) (le blk (o + 1) 1)

/-- A sub-block of integers in units of 2^E, its exponent chosen as in R54: an element beyond the bound is clipped, every other is rounded
to nearest, ties to even, with no dither (R351). -/
def codecSub (w : Nat) (e : Int) (as : List Int) : SubBlock :=
  let r := drainSub (-64) 63 false (qmaxOf false w) e as (List.replicate 64 0)
  { r with qs := (as.zip r.qs).map fun p =>
      if 0 < r.clips ∧ overBound (qmaxOf false w) (r.e - e) p.1 then p.2 else shiftEven p.1 (e - r.e) }

/-- A plane-major packed block of integers in units of 2^E (R351). -/
def codecBlock (w : Nat) (e : Int) (vs : List Int) : List Byte :=
  (blockOf true false w ((chunks 64 8 (fit 0 512 vs)).map (codecSub w e))).1

/-- The size of a compressed block (R350). -/
def kvSize (d : Nat) : Nat := 8 + 32 * d

/-- The compressed blocks of a handle from block `k` on with the codebook of each; the read of block k is access `at_ + k` of the command. -/
def State.kvRead (s : State) (n : Nat) (t : Task) (h : Handle) (d at_ k : Nat) (env : Env)
    : Nat → State × Except Flt (List (Book × List Byte))
  | 0 => (s, .ok [])
  | m + 1 =>
    let r := s.codecRead n h.scratch t.desc.parcel (h.base + k * kvSize d) (kvSize d) (env.of (at_ + k))
    match r.2 with
    | .error f => (r.1, .error f)
    | .ok b =>
      let hd := le b 0 8
      match r.1.book t.desc (bits hd 19 8) (bits hd 1 0) with
      | none => (r.1, .error { st := 0x0391#16, unit := 5 })
      | some bk =>
        let q := State.kvRead r.1 n t h d at_ (k + 1) env m
        (q.1, q.2.map fun l => (bk, b) :: l)

/-- The plane-major blocks of the layout of R348 that compressed blocks decode to: one for each token's key, or for each dimension of each
half-block of values. -/
def decodedBlocks (bs : List (Book × List Byte)) (d pitch : Nat) (v : Bool) : List (List Byte) :=
  let toks := bs.flatMap fun b => (List.range 64).map fun i => (b.1.e, tokenVec b.1 b.2 d i v)
  if !v then toks.map fun x => codecBlock pitch x.1 x.2
  else
    (chunks 512 (toks.length / 512) toks).flatMap fun half =>
      let e := (half.map (·.1)).foldl min 127
      (List.range d).map fun c => codecBlock pitch e (half.map fun x => shiftEven (x.2.getD c 0) (x.1 - e))

/-- Decodes one handle into the layout of R348, or the fault that ends the task. -/
def State.decodeHandle (s : State) (n : Nat) (t : Task) (h : Handle) (at_ : Nat) (env : Env) : State × Option Flt :=
  let w := codecWord h.scale
  match t.handles[w.dst]? with
  | none => (s, none)
  | some g =>
    let r := s.kvRead n t h w.d at_ 0 env h.kvBlocks
    match r.2 with
    | .error f => (r.1, some f)
    | .ok bs =>
      let out := decodedBlocks bs w.d g.pitch (w.cmode != 1)
      let s := r.1.modStn n fun x => ((List.range out.length).zip out).foldl (fun x p => x.sput (g.blockAt p.1) p.2) x
      (s.modCore n fun c => c.count .kvcDec (64 * w.d * bs.length), none)

/-- The decode handles of a task. -/
def Task.decodes (t : Task) : List Handle := t.handles.filter fun h => h.codec t.desc.kind && (codecWord h.scale).cmode != 3

/-- Whether the decode of a task's handles overlaps the task before it: the same Parcel, and no DST extent in a bank to which that task's
port map gives a port (R353). -/
def State.overlaps (s : State) (n : Nat) (t : Task) : Bool :=
  match (s.stn n).prev with
  | none => false
  | some (p, im) => p == t.desc.parcel && t.decodes.all fun h => match t.handles[(codecWord h.scale).dst]? with
      | none => true
      | some g => (linesOf t.image g.base (g.nblk * g.unit)).all fun l => im.port.getD l.1 0 == 0

/-- The ticks that a Station waits for its decoders: they work side by side, each on one handle, at 64 elements a tick (R353). A decode that
overlaps the task before it is taken to end with it (DESIGN CHOICE, log entry 97). -/
def State.stageTicks (s : State) (n : Nat) (t : Task) : Nat :=
  if s.overlaps n t then 0 else (t.decodes.map fun h => h.kvBlocks * (codecWord h.scale).d).foldl max 0

/-- Decodes every decode handle of a task before its first bundle (R353), or ends at the first fault. Access 0 of the command is the read of
the image. -/
def State.decodeAll (s : State) (n : Nat) (t : Task) (env : Env) : State × Option Flt :=
  let s := s.modCore n fun c => c.count .kvcStage (s.stageTicks n t)
  let r := t.decodes.foldl (fun (r : Nat × State × Option Flt) h => match r.2.2 with
    | some _ => r
    | none => (r.1 + h.kvBlocks, r.2.1.decodeHandle n t h r.1 env)) (1, s, none)
  r.2

/-! ### Encoding (R352, R353) -/

/-- The index of the entry at least distance, the lower among equals; values in units of 2^m, entries in units of 2^(m + sh). -/
def nearest (es : List (List Int)) (sh : Int) (x : List Int) : Nat :=
  let dist (v : List Int) : Nat := ((x.zip v).map fun p => (p.1 - shiftEven p.2 sh).natAbs).sum
  let r := ((List.range es.length).zip es).foldl (fun (a : Option (Nat × Nat)) p =>
    let k := dist p.2
    match a with
    | none => some (p.1, k)
    | some b => if k < b.2 then some (p.1, k) else a) none
  (r.map (·.1)).getD 0

/-- The two indices of a sub-vector. `x` holds integers in units of 2^m with m ≤ E. -/
def encodeSub (b : Book) (m : Int) (x : List Int) : Nat × Nat :=
  let sh := b.e - m
  let i := nearest b.s1 sh x
  let r := (x.zip (b.s1.getD i [])).map fun p => p.1 - shiftEven p.2 sh
  (i, nearest b.s2 sh r)

/-- The codes of a vector: the two indices of each of its d/8 sub-vectors (R350, R352). -/
def encodeVec (b : Book) (m : Int) (d : Nat) (x : List Int) : List Byte :=
  (chunks 8 (d / 8) (fit 0 d x)).flatMap fun v => let r := encodeSub b m v; natLe 1 r.1 ++ natLe 1 r.2

/-- The compressed block of 64 tokens' keys and values in units of 2^m, under generation `gen` of a set (R350). -/
def encodeBlock (b : Book) (m : Int) (d set gen : Nat) (toks : List (List Int × List Int)) : List Byte :=
  natLe 8 (gen % 4 + set <<< 8) ++ (List.range 64).flatMap fun i =>
    let x := toks.getD i ([], [])
    encodeVec b m d x.1 ++ encodeVec b m d x.2

/-- The elements of a plane-major block in units of 2^m. -/
def blockInts (bs : List Byte) (m : Int) : List Int :=
  let h := hdrOf bs
  ((blockElems true h (bs.drop 8)).zip (List.range 512)).map fun p => shiftEven p.1 (h.es.getD (p.2 / 64) 0 - m)

/-- An LNS16 word in units of 2^m, its magnitude as R56 forms it (DESIGN CHOICE, log entry 133: R352 does not say how an unsealed value enters
the distance). -/
def lnsInt (m : Int) (x : Lns) : Int :=
  if lnsIsZero x then 0 else let a := packMag (lnsL x) (m + 16); if lnsSign x then -a else a

/-- The place of a task's plain KV (R348): `key` and `val` are the addresses of its first key and first sealed value block, `stage` that of
the staging area. -/
structure KvPlain where
  key   : Nat
  val   : Nat
  stage : Nat
  pk    : Nat
  pv    : Nat
  d     : Nat
  deriving DecidableEq, Repr

/-- The key of token i and the address of the block of dimension c of half-block h (R348). -/
def KvPlain.keyAt (k : KvPlain) (i : Nat) : Nat := k.key + i * (64 * k.pk + 8)
def KvPlain.valAt (k : KvPlain) (h c : Nat) : Nat := k.val + (h * k.d + c) * (64 * k.pv + 8)

/-- The keys and values of `nt` tokens in units of 2^m from plain KV that a function reads (R348): sealed half-blocks from their blocks, the
open one from the staging area, token-major. -/
def KvPlain.tokens (k : KvPlain) (m : Int) (nt : Nat) (rd : Nat → Nat → List Byte) : List (List Int × List Int) :=
  let sealed := (List.range (nt / 512 * k.d)).map fun i => blockInts (rd (k.valAt 0 i) (64 * k.pv + 8)) m
  (List.range nt).map fun i =>
    (blockInts (rd (k.keyAt i) (64 * k.pk + 8)) m,
     (List.range k.d).map fun c =>
       if i / 512 < nt / 512 then (sealed.getD (i / 512 * k.d + c) []).getD (i % 512) 0
       else lnsInt m (BitVec.ofNat 16 (le (rd (k.stage + 2 * (i % 512 * k.d + c)) 2) 0 2)))

/-- The blocks that an encode reads from its DST handle, each with the address and length of its burst, in order: the keys, then the sealed
values; and the staging area after them (DESIGN CHOICE, log entry 133: R348 gives the staging area no place). -/
def dstPlain (g : Handle) (nt d : Nat) : KvPlain :=
  { key := g.base, val := g.blockAt nt, stage := g.blockAt (nt + nt / 512 * d), pk := g.pitch, pv := g.pitch, d := d }

/-- Checks the headers of the blocks of a DST handle from block `k` on (R41), each read being access `at_ + k`. -/
def State.dstCheck (s : State) (n : Nat) (g : Handle) (at_ k : Nat) (env : Env) : Nat → State × Option Flt
  | 0 => (s, none)
  | m + 1 =>
    let r := s.codecRead n true 0 (g.blockAt k) g.unit (env.of (at_ + k))
    match r.2 with
    | .error f => (r.1, some f)
    | .ok b => match hdrCheck g.pitch (hdrOf b) with
      | some st => (r.1, some { st := st, addr := scrAddr (g.blockAt k), unit := 5 })
      | none => State.dstCheck r.1 n g at_ (k + 1) env m

/-- Writes bytes of the codec to the scratchpad or, posted, to the Range (R296, R311, R353). -/
def State.codecWrite (s : State) (n : Nat) (t : Task) (scratch : Bool) (a : Nat) (bs : List Byte) (env : Env) : State × Option Flt :=
  if scratch then
    if inScratch a bs.length then (s.modStn n fun x => x.sput a bs, none) else (s, some { st := 0x0762#16, addr := scrAddr a, unit := 5 })
  else match s.writeCheck n t.desc.parcel a bs.length with
    | some x => (s.countRefused x, some { st := x.1, addr := x.2, unit := 5 })
    | none =>
      let r := s.post n a bs env.rmw
      (r.1, r.2.map fun x => { st := x.1, addr := x.2, unit := 5 })

/-- Encodes one handle (R352). -/
def State.encodeHandle (s : State) (n : Nat) (t : Task) (h : Handle) (at_ : Nat) (env : Env) : State × Option Flt :=
  let w := codecWord h.scale
  let set := h.nblk / 2 ^ 16 % 4096
  match t.handles[w.dst]?, (s.parcel t.desc.parcel).newest set with
  | some g, some gen =>
    match s.book t.desc set (gen % 4) with
    | none => (s, some { st := 0x0391#16, unit := 5 })
    | some bk =>
      let m : Int := min bk.e (-64)
      let nt := 64 * h.kvBlocks
      let r := s.dstCheck n g at_ 0 env (nt + nt / 512 * w.d)
      match r.2 with
      | some f => (r.1, some f)
      | none =>
        let toks := (dstPlain g nt w.d).tokens m nt fun a len => (r.1.stn n).sbytes a len
        let out := (chunks 64 h.kvBlocks toks).map (encodeBlock bk m w.d set gen)
        let r := ((List.range out.length).zip out).foldl (fun (r : State × Option Flt) p => match r.2 with
          | some _ => r
          | none => r.1.codecWrite n t h.scratch (h.base + p.1 * kvSize w.d) p.2 env) (r.1, none)
        match r.2 with
        | some f => (r.1, some f)
        | none =>
          let s := (s.ownersOf t.desc).foldl (fun s q => s.modReq q fun q =>
            { q with kvGens := (set, gen % 4) :: q.kvGens.filter fun x => x != (set, gen % 4) }) r.1
          (s.modCore n fun c => c.count .kvcEnc (2 * nt * w.d), none)
  | _, _ => (s, some { st := 0x0391#16, unit := 5 })

/-- The encode handles of a task. -/
def Task.encodes (t : Task) : List Handle := t.handles.filter fun h => h.codec t.desc.kind && (codecWord h.scale).cmode == 3

/-- Whether an encode of a task writes to a page that moves: the task waits for the flip (R317). -/
def State.encodeWaits (s : State) (t : Task) : Bool :=
  t.encodes.any fun h => !h.scratch && s.movingAt h.base (h.kvBlocks * kvSize (codecWord h.scale).d)

/-- Encodes every encode handle of a task in handle order after END and flushes what it wrote (R311, R353), or ends at the first fault. Its
reads are the accesses of the command from 4,096 on (DESIGN CHOICE, log entry 34). -/
def State.encodeAll (s : State) (n : Nat) (t : Task) (env : Env) : State × Option Flt :=
  let r := t.encodes.foldl (fun (r : Nat × State × Option Flt) h => match r.2.2 with
    | some _ => r
    | none => (r.1 + 64 * h.kvBlocks, r.2.1.encodeHandle n t h r.1 env)) (4096, s, none)
  match r.2.2 with
  | some f => (r.2.1, some f)
  | none =>
    let q := r.2.1.flushAll n env.rmw
    (q.1, q.2.map fun x => { st := x.1, addr := x.2, unit := 5 })

end Sys2Proof.Machine
end

