-- ==== Sys2Proof/Machine/Kv.lean ====
section
/-!
DEFINITION. The KV of a request in its Parcel's pages (R348 to R350, R355): the sealing of a half-block and the compressed blocks that
leave. Where the areas lie is not stated (`Config.kvPlace`): what a place outside the Parcel's D pages would hold is left alone.
-/

namespace Sys2Proof.Machine

/-- Whether `len` bytes lie in D pages of a Parcel. -/
def State.inOwnD (s : State) (p a len : Nat) : Bool :=
  (pagesOf a len).all fun g => g / 2 ^ 19 < 0xE && (s.page g).valid && (s.page g).owner == p && (s.page g).cls == .d

/-- The plain KV of a request, layer and KV head in a Parcel (R348). -/
def plainKv (p r layer head : Nat) (rc : Recipe) : KvPlain :=
  let f := Config.kvPlace p r layer head
  { key := f 0, val := f 1, stage := f 2, pk := rc.pk, pv := rc.pv, d := rc.d }

/-! ### Sealing (R349) -/

/-- The value blocks of the tokens in the staging area, one for each dimension (R348, R349). -/
def State.sealedBlocks (s : State) (k : KvPlain) (scale : Lns) : List (List Byte) :=
  (List.range k.d).map fun c =>
    (packBlock true false k.pv scale ((List.range 512).map fun i => BitVec.ofNat 16 (le (s.rbytes (k.stage + 2 * (i * k.d + c)) 2) 0 2))
      ((List.range 512).map fun i => (Config.sealDither s.free (512 * c + i)).toNat)).1

/-- The sums over the 1,024 tokens of KV block `b` of each element of their keys, in units of 2^−64 of the key's scale (R349). -/
def State.keySums (s : State) (k : KvPlain) (b : Nat) : List Int :=
  (List.range 1024).foldl (fun a i =>
    (a.zip (blockInts (s.rbytes (k.keyAt (1024 * b + i)) (64 * k.pk + 8)) (-64))).map fun x => x.1 + x.2) (List.replicate k.d 0)

/-- The trits of a block's summary: the sign of an element of the mean key whose magnitude is not below the mean magnitude, else 0 (R349).
`neg` tells that the tensor scale is negative. -/
def summaryTrits (neg : Bool) (ms : List Int) : List Int :=
  let total := (ms.map Int.natAbs).sum
  ms.map fun m => if m.natAbs * ms.length < total then 0 else if neg then -m.sign else m.sign

/-- The scale of a block's summary: the mean magnitude of the mean key over its trits that are not 0 (R349), with the rounded logarithm of
R52 (DESIGN CHOICE, log entry 132). -/
def summaryScale (scale : Lns) (ms ts : List Int) : Lns :=
  let on := (ms.zip ts).filter fun x => x.2 != 0
  if lnsIsZero scale then lnsZero
  else (lnsMul (lnsMk false (lnsL scale)) (lnsOfRatio ((on.map fun x => x.1.natAbs).sum) (1024 * on.length * 2 ^ 64))).1

/-- The summary of KV block `b`: a trit in the strip of each dimension, and an entry of the scale table (R200, R349). -/
def State.writeSummary (s : State) (p : Nat) (k : KvPlain) (f : Nat → Nat) (b : Nat) : State :=
  let scale : Lns := BitVec.ofNat 16 (f 6)
  let ms := s.keySums k b
  let ts := if lnsIsZero scale then List.replicate k.d 0 else summaryTrits (lnsSign scale) ms
  let at_ (i : Nat) : Nat := f 4 + (i * f 8 + b / 512) * 104
  let s := ((List.range k.d).zip ts).foldl (fun s x =>
    let old := s.rbytes (at_ x.1) 104
    if s.inOwnD p (at_ x.1) 104 then s.rput (at_ x.1) (stripOf ((fit 0 512 (stripTrits old)).set (b % 512) x.2) (old.getD 103 0)) else s) s
  if s.inOwnD p (f 5 + 2 * b) 2 then s.rput (f 5 + 2 * b) (natLe 2 (summaryScale scale ms ts).toNat) else s

/-- Seals a half-block (R349): the staging area is packed into the value blocks and cleared to zero bytes, and the half-block that completes a
KV block brings its summary. The spec makes this a task of its own: here it is part of the completion of the task that writes the 512th
token (DESIGN CHOICE, log entry 132). -/
def State.sealHalf (s : State) (q : Seal) : State :=
  let r := q.req.toNat
  let p := (s.req r).parcel
  match s.recipe p (s.req r).blk.recipe with
  | none => s
  | some rc =>
    let k := plainKv p r q.layer.toNat q.head.toNat rc
    let f := Config.kvPlace p r q.layer.toNat q.head.toNat
    let h := q.half.toNat
    let size := 64 * k.pv + 8
    if !(s.req r).live ∨ !s.inOwnD p k.stage (1024 * k.d) ∨ !s.inOwnD p (k.valAt h 0) (k.d * size) then s
    else
      let bs := s.sealedBlocks k (BitVec.ofNat 16 (f 7))
      let s := (({ s with free := s.free + 1 }).rput (k.valAt h 0) bs.flatten).rput k.stage (List.replicate (1024 * k.d) 0)
      if h % 2 = 0 then s else s.writeSummary p k f (h / 2)

/-! ### Compressed blocks (R350, R355) -/

/-- The compressed blocks of a layer and KV head for `nt` tokens: those of the packed area, or plain KV encoded with the newest codebook of its
set; 0x0391 where the set holds none (R352, R355). -/
def State.kvBlocks (s : State) (r layer head : Nat) (rc : Recipe) (nt : Nat) : Except Status (List Byte) :=
  let q := s.req r
  let p := q.parcel
  let f := Config.kvPlace p r layer head
  let nb := ceilDiv nt 64
  if q.packed then .ok (s.rbytes (f 3) (nb * kvSize rc.d))
  else
    let set := f 9 % 4096
    match (s.parcel p).newest set with
    | none => .error 0x0391#16
    | some gen =>
      let bk := bookOf (s.rbytes (rc.bookAddr set (gen % 4)) 4104)
      let m : Int := min bk.e (-64)
      let toks := (plainKv p r layer head rc).tokens m nt s.rbytes
      .ok ((chunks 64 nb toks).flatMap (encodeBlock bk m rc.d set gen))

/-- The sets and generations of compressed blocks, added to those that are known (R354). -/
def kvGensOf (d : Nat) (bs : List Byte) (l : List (Nat × Nat)) : List (Nat × Nat) :=
  ((List.range (bs.length / kvSize d)).foldl (fun l i =>
    let h := le bs (kvSize d * i) 8
    if l.contains (bits h 19 8, bits h 1 0) then l else (bits h 19 8, bits h 1 0) :: l) l)

/-- The compressed blocks of a layer and KV head reach the pages of the Parcel that decodes the request (R355). -/
def State.kvStore (s : State) (p r layer head : Nat) (bs : List Byte) : State :=
  let a := Config.kvPlace p r layer head 3
  if s.inOwnD p a bs.length then s.rput a bs else s

end Sys2Proof.Machine
end

