-- ==== Sys2Proof/Machine/Tasks.lean ====
section
/-!
DEFINITION. Task graphs and dispatch (R264 to R292): descriptors and their validation, the trackers, dispatch to a Station,
completion, tokens, deadlines and known-answer tests.
-/

namespace Sys2Proof.Machine

/-! ### Layouts (R230, R264 to R270) -/

def descOf (b : List Byte) : Desc :=
  let f (o k hi lo : Nat) : Nat := bits (le b o k) hi lo
  { dver := le b 0 1, kind := le b 1 1, parcel := f 2 1 3 0, retain := f 3 1 1 1 == 1, relaxed := f 3 1 0 0 == 1,
    stmask := le b 4 2, facet := f 6 1 1 0, nh := f 7 1 4 0, prog := f 8 8 43 0, htab := f 16 8 43 0, gtab := f 24 8 43 0,
    depd := le b 32 2, dept := le b 34 2, taskid := f 36 2 11 0, nsucc := f 38 1 4 0, ngen := f 39 1 6 0,
    deadline := f 40 8 47 0, serial := f 48 4 23 0, owner := le b 52 2, ownkind := f 54 1 1 0, tgen := le b 55 1,
    succs := (List.range 16).map fun k => le b (64 + 4 * k) 4,
    rsv := f 2 1 7 4 != 0 || f 3 1 7 2 != 0 || f 6 1 7 2 != 0 || f 7 1 7 5 != 0 || f 8 8 63 44 != 0 || f 16 8 63 44 != 0
      || f 24 8 63 44 != 0 || f 36 2 15 12 != 0 || f 38 1 7 5 != 0 || f 39 1 7 7 != 0 || f 40 8 63 48 != 0
      || f 48 4 31 24 != 0 || f 54 1 7 2 != 0 || !zeros b 56 8 }

def handleOf (b : List Byte) : Handle :=
  let a := le b 0 8
  let sc := bits a 63 63 == 1
  { scratch := sc, base := if sc then bits a 23 0 else bits a 43 0, scale := BitVec.ofNat 16 (le b 8 2),
    pitch := bits (le b 10 1) 3 0, plane := bits (le b 10 1) 4 4 == 1, hkind := bits (le b 10 1) 6 5,
    out := bits (le b 10 1) 7 7 == 1, nblk := le b 12 4,
    rsv := bits a 62 44 != 0 || (sc && bits a 43 24 != 0) || le b 11 1 != 0 }

def genOf (b : List Byte) : GenEntry :=
  let w := le b 0 8
  { seed := bits w 63 24, group := bits w 12 9, role := bits w 8 6, gen := bits w 5 0, rsv := bits w 23 13 != 0 }

/-- `k` entries of `n` bytes. -/
def tableOf (n k : Nat) (b : List Byte) : List (List Byte) := (List.range k).map fun i => (b.drop (n * i)).take n

/-- The header of an image, or the status of the check of R231 that it fails. -/
def imageOf (b : List Byte) (relaxed : Bool) : Except Status Image :=
  let im : Image := { nb := le b 0 2, need := le b 3 1 % 2 == 1, port := (List.range 32).map fun k => le b (8 + 2 * k) 2,
                      ilv := (List.range 32).map fun k => bits (le b 72 8) (2 * k + 1) (2 * k) }
  let code (k : Nat) : Nat := im.ilv.getD k 0
  if im.nb = 0 ∨ 4096 < im.nb ∨ le b 3 1 / 2 ≠ 0 ∨ !zeros b 4 4 ∨ !zeros b 80 48 then .error 0x0160#16
  else if le b 2 1 ≠ 1 then .error 0x0161#16
  else if im.port.any (fun p => 1024 ≤ p)
      ∨ (List.range 32).any (fun k => code (k / 2 ^ code k * 2 ^ code k) ≠ code k
          ∨ (List.range (2 ^ code k)).any fun i => code (k / 2 ^ code k * 2 ^ code k + i) ≠ code k)
      ∨ (List.range 8).any (fun k => code (24 + k) ≠ 3) then .error 0x0162#16
  else if im.need ∧ !relaxed then .error 0x0163#16
  else .ok im

/-! ### Validation (R272) -/

/-- The extent of a handle in bytes; a codec handle counts compressed blocks (R353). -/
def Handle.extent (h : Handle) (kind : Nat) : Nat :=
  if h.codec kind then h.kvBlocks * (8 + 32 * (codecWord h.scale).d) else h.nblk * h.unit

/-- Whether a page is one that a Parcel's handles may lie in: mapped to it, or a window page that an entry maps (R383). -/
def State.handlePage (s : State) (p g : Nat) : Bool :=
  if g / 2 ^ 19 = 0xE then ((s.parcel p).windowAt g).isSome else g / 2 ^ 19 ≠ 0xF && s.mayRead p g

/-- Whether a page is a Tier N or Tier H page of a Parcel (R167, R383). -/
def State.fastPage (s : State) (p g : Nat) : Bool :=
  if g / 2 ^ 19 = 0xE then ((s.parcel p).windowAt g).isSome
  else g / 2 ^ 19 ≠ 0xF && (s.page g).valid && (s.page g).owner == p && (s.page g).cls != .wShared && (s.page g).loc != 2

/-- The first status of check 10 that a handle fails (R43, R167, R269, R272). -/
def State.handleCheck (s : State) (d : Desc) (h : Handle) : Option Status :=
  let pgs := pagesOf h.base (h.extent d.kind)
  if h.rsv ∨ h.hkind = 3 ∨ (h.plane ∧ h.hkind ≠ 0) then some 0x0142#16
  else if h.hkind = 0 ∧ (h.pitch = 0 ∨ 8 < h.pitch ∨ h.base % 8 ≠ 0) then some 0x0121#16
  else if h.hkind = 1 ∧ (h.base % 8 ≠ 0 ∨ (h.scratch ∧ h.out) ∨ (!h.scratch ∧ pgs.any fun g => !s.fastPage d.parcel g)) then
    some 0x0141#16
  else if h.hkind ≠ 0 ∧ h.pitch ≠ 0 then some 0x0143#16
  else if h.scratch then
    (if d.kind = 5 then
      (if windowBase ≤ h.base ∧ h.base + h.extent d.kind ≤ scratchSize then none else some 0x0143#16)
     else if h.base + h.extent d.kind ≤ windowBase then none else some 0x0143#16)
  else if pgs.any (fun g => !s.handlePage d.parcel g) then some 0x0143#16
  else if h.out ∧ pgs.any (fun g => (s.page g).cls == .wShared) then some 0x0143#16
  else none

/-- The status of a generator entry taken alone (R272 check 11). -/
def GenEntry.check (g : GenEntry) : Option Status :=
  if g.rsv then some 0x0137#16 else if g.role = 7 then some 0x0122#16 else none

/-- Whether two roles are separated whatever their groups (R63). -/
def rolesApart (a b : Nat) : Bool :=
  (a == 1 && b == 2) || (a == 2 && b == 1) || (a == 5 && b != 5) || (b == 5 && a != 5)

/-- Whether the entries break R65. -/
def gensClash (gs : List GenEntry) : Bool :=
  let us := gs.filter fun g => g.role != 0
  us.any fun a => us.any fun b => a.gen == b.gen && (a.group != b.group || rolesApart a.role b.role)

/-- Whether KIND permits OWNKIND (R265). -/
def ownkindOk (kind ok : Nat) : Bool :=
  match kind with
  | 0 => ok ≤ 1
  | 1 => ok == 2
  | 2 => ok ≤ 1
  | 3 => ok == 2
  | 4 => ok == 0 || ok == 2
  | 5 => ok == 2
  | _ => false

/-- The local Stations of a Facet that a Parcel holds. -/
def State.localMask (s : State) (p f : Nat) : Nat := ((s.parcel p).stations >>> (16 * f)).toNat % 65536

/-- Whether `len` bytes lie in pages mapped to the Parcel, or in the system region where that is granted (check 5). -/
def State.areaMapped (s : State) (p a len : Nat) (sys : Bool) : Bool :=
  (pagesOf a len).all fun g => if g / 2 ^ 19 = 0xF then sys else g / 2 ^ 19 ≠ 0xE && s.mayRead p g

/-- Whether the fields of a successor entry are illegal (check 8). -/
def succIllegal (d : Desc) (e : Nat) : Bool :=
  let ty := bits e 31 30
  e % 8 != 0 || ((ty == 1 || ty == 2) && bits e 14 3 != 0) || (ty == 2 && bits e 28 27 == d.facet)
    || (ty == 1 && bits e 28 27 != d.facet)

/-- Whether a successor entry names a module that is not in the Survey Plan (check 8). -/
def State.succUnknown (s : State) (e : Nat) : Bool :=
  bits e 31 30 == 3 && !(match s.trv.survey with
    | some v => v.mods.any fun m => m.1 == bits e 14 3
    | none => false)

/-- The status of check 8: an illegal entry anywhere before a module that is not in the plan. -/
def State.succCheck (s : State) (d : Desc) : Option Status :=
  let es := d.succs.take d.nsucc
  if (d.succs.drop d.nsucc).any (· ≠ 0) ∨ es.any (succIllegal d) then some 0x0135#16
  else if es.any s.succUnknown then some 0x0530#16 else none

/-- The checks of R272 in order. -/
def State.descCheck (s : State) (f : Nat) (d : Desc) (by_ : Submitter) (hs : List Handle) (gs : List GenEntry) : Option Status :=
  let sys := by_ == .graph || by_ == .test
  let pc := s.parcel d.parcel
  let mask := if d.kind = 5 then 0xFFFF else s.localMask d.parcel f
  if d.dver ≠ 1 ∨ 5 < d.kind ∨ d.ownkind = 3 ∨ !ownkindOk d.kind d.ownkind ∨ (d.ownkind = 1 ∧ 1024 ≤ d.owner)
      ∨ (d.ownkind = 2 ∧ d.owner ≠ 0) ∨ d.rsv then some 0x0130#16
  else if d.kind ≠ 5 ∧ pc.st = .absent then some 0x0131#16
  else if d.kind ≠ 5 ∧ pc.st = .resetting then some 0x0231#16
  else if d.stmask = 0 ∨ d.stmask &&& mask ≠ d.stmask ∨ d.facet ≠ f
      ∨ (d.retain ∧ 1 < ((List.range 16).filter fun k => d.stmask.testBit k).length) then some 0x0132#16
  else if 16 < d.nh ∨ 16 < d.nsucc ∨ 64 < d.ngen ∨ 4095 < d.depd ∨ 4095 < d.dept then some 0x0133#16
  else if d.prog % 64 ≠ 0 ∨ d.htab % 16 ≠ 0 ∨ d.gtab % 8 ≠ 0 ∨ !s.areaMapped d.parcel d.prog 128 (by_ == .test)
      ∨ !s.areaMapped d.parcel d.htab (16 * d.nh) sys ∨ !s.areaMapped d.parcel d.gtab (8 * d.ngen) sys then some 0x0134#16
  else if (s.entry f d.taskid).st ≠ .free then some 0x0232#16
  else if d.tgen ≠ (tget 0 s.mem.mgen d.parcel).toNat then some 0x0233#16
  else match s.succCheck d with
  | some st => some st
  | none =>
    if d.kind = 5 ∧ (by_ ≠ .test ∨ d.parcel ≠ 0 ∨ d.serial ≠ 0 ∨ d.owner ≠ 0) then some 0x0136#16
    else match hs.findSome? (s.handleCheck d) with
    | some st => some st
    | none => match gs.findSome? GenEntry.check with
      | some st => some st
      | none => if gensClash gs then some 0x0120#16 else none

/-! ### Ends before dispatch (R273, R280, R284) -/

/-- Whether a task belongs to a run graph: its instance's, or, without instance, a task of no request. -/
def State.ofRun (s : State) (d : Desc) : Bool :=
  match (s.parcel d.parcel).insts.find? fun i => i.serial == d.serial with
  | some i => i.ownkind == 2
  | none => d.ownkind == 2

/-- The rest of an instance is cancelled (R284): in a request's instance the prefetch tasks stay, which serve later requests (R283). -/
def State.cancelRest (s : State) (d : Desc) (run : Bool) (st : Status) : State :=
  s.cancelWhere st fun e => e.serial == d.serial && e.parcel == d.parcel && (run || e.ownkind != 2)

/-- Whether a status is one of R290, which TRK_LAST_STATUS shows. -/
def trkStatus (st : Status) : Bool :=
  let v := st.toNat
  decide (0x0130 ≤ v ∧ v ≤ 0x0137) || v == 0x0142 || v == 0x0143 || decide (0x0231 ≤ v ∧ v ≤ 0x0233) || v == 0x0370 || v == 0x0530
    || decide (0x0770 ≤ v ∧ v ≤ 0x0772)

/-- Notes the status of R290 that a tracker returns (R291). -/
def State.trkLast (s : State) (f : Nat) (st : Status) : State :=
  if trkStatus st then { s with trk := { s.trk with last := fput s.trk.last f st } } else s

/-- What Grenlor does after a rejection (R273): the owners end, the other tasks of the instance are cancelled, and a task without owner
is reported to its Parcel. -/
def State.rejected (s : State) (f : Nat) (d : Desc) (st : Status) : State :=
  let s := (s.trkLast f st).trkCount f .rejected
  let s := s.endOwners d st
  let s := (s.dropInst d.parcel d.serial).cancelRest d true st
  if d.ownkind = 2 then s.notify d.parcel 0x0001 (taskDoneDetail d st) else s

/-- A task that ends with a status leaves its entry, its owners end, and with `rest` the rest of its instance is cancelled: a run graph
that ends so is reported once (R284, R285, R427). -/
def State.endTaskOf (s : State) (f t : Nat) (st : Status) (rest : Bool) : State :=
  let d := (s.entry f t).desc
  let run := s.ofRun d && d.kind != 5
  let s := (if rest && run then s.dropInst d.parcel d.serial else s).freeEntry f t st
  if st = 0x0753#16 then s
  else
    let s := s.endOwners d st
    if !rest then s
    else
      let s := s.cancelRest d run st
      if run then s.notify d.parcel 0x0001 (taskDoneDetail d st) else s

/-- Ends a WAITING or READY task with a status: its record has NOSTN, its owners end (R280, R284, R288). -/
def State.endWaiting (s : State) (f t : Nat) (st : Status) (idx : Nat) (rest : Bool) : State :=
  let d := (s.entry f t).desc
  let s := (s.trkLast f st).putRecord (recordOf { Task.empty with desc := d } 0 true st 0 0 idx 0 0)
  s.endTaskOf f t st rest

/-- Starts the wake of a Station that is Parked or Off, but for one that is withdrawn, and not in ABORT (R487, R496); its
Facet's stacks leave self-refresh meanwhile (R488). -/
def State.wake (s : State) (n : Nat) : State :=
  if (s.spow n = .parked ∨ s.spow n = .off) ∧ !s.isWithdrawn n ∧ s.pwr.supply ≠ .abort then
    let s := (facetOf n :: (List.range 4).map fun i => 4 + 4 * facetOf n + i).foldl (fun s k =>
      s.modStack k fun x => { x with selfRef := false }) s
    { s with pwr := { s.pwr with waking := fput s.pwr.waking n (s.spow n) } }
  else s

/-- A task becomes READY: its moment, and the wakes of the Parked Stations it names; a known-answer test wakes none (R276, R287,
R487). -/
def State.becomeReady (s : State) (f t : Nat) : State :=
  let e := s.entry f t
  let s := s.setEntry f t { e with st := .ready, order := s.trk.order }
  if e.desc.kind = 5 then s
  else (List.range 16).foldl (fun s k => if e.desc.stmask.testBit k then s.wake (16 * f + k) else s) s

/-- The next control cycle: what becomes READY from then on did so later (R276). -/
def State.nextMoment (s : State) : State := { s with trk := { s.trk with order := s.trk.order + 1 } }

/-- WAITING becomes READY when both counts are 0 (R274). -/
def State.maybeReady (s : State) (f t : Nat) : State :=
  let e := s.entry f t
  if e.st = .waiting ∧ e.depd = 0 ∧ e.dept = 0 then s.becomeReady f t else s

/-! ### Tokens (R279 to R283) -/

/-- A token acts on its target (R280): `remote` tells a token of another module. -/
def State.applyToken (s : State) (f : Nat) (tok : BitVec 64) (remote : Bool) : State :=
  let w := tok.toNat
  let t := bits w 31 20
  let cnt := bits w 34 34
  let e := s.entry f t
  if e.st = .free ∨ e.desc.serial ≠ bits w 63 40 ∨ e.desc.parcel ≠ bits w 39 36 then
    if remote ∧ e.st = .free then
      (if s.trk.pending.countP (fun p => p.1 == f) < 512 then
        { s with trk := { s.trk with pending := s.trk.pending ++ [(f, tok, s.aon)] } }
       else s.trkCount f .stale)
    else s.trkCount f .stale
  else if bits w 35 35 = 1 then s.cancelEntry f t 0
  else
    let c := if cnt = 1 then e.dept else e.depd
    if c = 0 then
      match e.st, e.stn with
      | .running, some n => s.trkLast f 0x0370#16 |>.killTask n 0x0370#16 cnt
      | .running, none => ((s.trkLast f 0x0370#16).putRecord (movedRecord 0x0370#16 0 cnt (s.aon - e.since) e.rec0)).endTaskOf f t
          0x0370#16 false
      | _, _ => s.endWaiting f t 0x0370#16 cnt false
    else
      (s.setEntry f t (if cnt = 1 then { e with dept := e.dept - 1 } else { e with depd := e.depd - 1 })).maybeReady f t

/-- Whether a token cancels the target of another: the cancel acts and the other is discarded (R283). -/
def tokenCancels (a b : BitVec 64) : Bool :=
  a.getLsbD 35 && !b.getLsbD 35 && bits a.toNat 31 20 == bits b.toNat 31 20 && bits a.toNat 63 36 == bits b.toNat 63 36

/-- COMPLETION_TOKEN (R280, R283): the tokens that act on a Facet's entries in one control cycle. A token that carries a MODULE is no
token of this module. -/
def completionToken (f : Nat) (toks : List (BitVec 64)) (t : Nat) (s : State) : State :=
  let s := s.tickTo t
  let mine := toks.filter fun k => bits k.toNat 33 32 == f && bits k.toNat 19 8 == 0
  let act := mine.filter fun k => !mine.any fun c => tokenCancels c k
  (act.foldl (fun s k => s.applyToken f k false) s).nextMoment

/-- PENDING_TOKEN_EXPIRE (R281): tokens that have waited 13,000 AON ticks are discarded. -/
def pendingTokenExpire (f t : Nat) (s : State) : State :=
  let s := s.tickTo t
  let old (p : Nat × BitVec 64 × Nat) : Bool := p.1 == f && decide (p.2.2 + 13000 ≤ s.aon)
  let k := s.trk.pending.countP old
  { s with trk := { s.trk with pending := s.trk.pending.filter fun p => !old p } }.trkCount f .stale k

/-! ### Submission -/

/-- Accepts a descriptor (R274), and applies the pending tokens that wait for it (R281). -/
def State.accept (s : State) (f : Nat) (d : Desc) (hs : List Handle) (gs : List GenEntry) : State :=
  let s := s.setEntry f d.taskid
    { TrkEntry.free with st := .waiting, desc := d, handles := hs, gens := gs, depd := d.depd, dept := d.dept }
  let s := (s.trkCount f .accepted).maybeReady f d.taskid
  let mine (p : Nat × BitVec 64 × Nat) : Bool :=
    p.1 == f && bits p.2.1.toNat 31 20 == d.taskid && bits p.2.1.toNat 63 40 == d.serial && bits p.2.1.toNat 39 36 == d.parcel
  let ps := s.trk.pending.filter mine
  let s := { s with trk := { s.trk with pending := s.trk.pending.filter fun p => !mine p } }
  ps.foldl (fun s p => s.applyToken f p.2.1 true) s

/-- The tables of a descriptor, read from memory. -/
def State.tablesOf (s : State) (d : Desc) : List Handle × List GenEntry :=
  ((tableOf 16 d.nh (s.rbytes d.htab (16 * d.nh))).map handleOf, (tableOf 8 d.ngen (s.rbytes d.gtab (8 * d.ngen))).map genOf)

/-- What refuses a read by a Facet's tracker: the stack of a page, or a poisoned sector (R305, R319, R326); the system region has
neither. -/
def State.trackerRead (s : State) (f a len : Nat) : Option Status :=
  ((pagesOf a len).findSome? (s.stackCheck f)).orElse fun _ => (s.poisonAt a len).map fun _ => 0x0380#16

/-- The status with which the read of a descriptor's tables ends: they are read once checks 1 to 9 have passed. -/
def State.tableError (s : State) (f : Nat) (d : Desc) (ue : Bool) : State × Option Status :=
  match (s.trackerRead f d.htab (16 * d.nh)).orElse fun _ => s.trackerRead f d.gtab (8 * d.ngen) with
  | some st => (s, some st)
  | none =>
    if ue then let r := s.uncorrectable (if d.nh = 0 then d.gtab else d.htab); (r.1, some r.2) else (s, none)

/-- Submits a descriptor with its tables (R272, R273): the status of the first check that fails, or acceptance. -/
def State.submitTables (s : State) (f : Nat) (d : Desc) (tb : List Handle × List GenEntry) (by_ : Submitter) (ue : Bool)
    : State × Option Status :=
  match s.descCheck f d by_ [] [] with
  | some st => (s.rejected f d st, some st)
  | none =>
    let r := s.tableError f d ue
    match r.2.orElse fun _ => s.descCheck f d by_ tb.1 tb.2 with
    | some st => (r.1.rejected f d st, some st)
    | none => ((s.accept f d tb.1 tb.2).nextMoment, none)

/-- Submits a descriptor whose tables lie in memory. -/
def State.submitDesc (s : State) (f : Nat) (d : Desc) (by_ : Submitter) (ue : Bool) : State × Option Status :=
  s.submitTables f d (s.tablesOf d) by_ ue

/-- DESCRIPTOR_SUBMIT (R272). -/
def descriptorSubmit (f : Nat) (bs : List Byte) (by_ : Submitter) (ue : Bool) (t : Nat) (s : State) : State :=
  ((s.tickTo t).submitDesc f (descOf bs) by_ ue).1

/-! ### Dispatch (R276 to R278) -/

/-- The Parcel that a Station's task may belong to, and whether the Station may receive a task: idle, Running or Ready, not
withdrawn nor held for a Benchmark reading, the supply above ABORT, its die below 110 °C (R261, R487, R496, R504, R512, R514). -/
def State.freeStn (s : State) (n : Nat) : Bool :=
  let x := s.stn n
  x.mode == .idle && (s.spow n == .running || s.spow n == .ready) && !s.isWithdrawn n && decide (x.hold ≤ s.aon)
    && s.pwr.supply != .abort && s.pwr.supply != .shut && !s.pwr.silent && (tget .reset s.dep.dies (facetOf n)).band != 2

/-- The pages of a task's handle extents (R320). -/
def TrkEntry.pages (e : TrkEntry) : List Nat :=
  (e.handles.filter fun h => !h.scratch).flatMap fun h => pagesOf h.base (h.extent e.desc.kind)

/-- Whether a task may be dispatched: no poisoned W-shared page lies in its extents (R320). -/
def State.clear (s : State) (e : TrkEntry) : Bool :=
  e.pages.all fun g => !((s.page g).valid && (s.page g).cls == .wShared && (s.page g).bad)

/-- Whether the AON time has reached a task's DEADLINE, after which it is not dispatched (R284). -/
def State.pastDeadline (s : State) (d : Desc) : Bool := d.deadline != 0 && decide (0 ≤ serialDist 48 s.aon d.deadline)

/-- Whether a READY task is offered to Station `n`: it names it, and no lower free Station (R277). -/
def State.offered (s : State) (n : Nat) (e : TrkEntry) : Bool :=
  e.st == .ready && e.desc.stmask.testBit (n % 16) && s.clear e && !s.pastDeadline e.desc
    && (e.desc.kind == 5 || (s.stationSet e.desc.parcel).getLsbD n)
    && !((List.range (n % 16)).any fun k => e.desc.stmask.testBit k && s.freeStn (n / 16 * 16 + k))

/-- Whether task `a` goes before task `b` (R276): by DEADLINE, 0 last, then by the moment of becoming READY, then by the rotating
pointer `ptr` over the TASKIDs (R404, R405). -/
def goesBefore (ptr : Nat) (a b : Nat × TrkEntry) : Bool :=
  if a.2.desc.deadline = b.2.desc.deadline then
    (if a.2.order = b.2.order then decide ((a.1 + 4096 - ptr) % 4096 < (b.1 + 4096 - ptr) % 4096)
     else decide (a.2.order < b.2.order))
  else if a.2.desc.deadline = 0 then false
  else if b.2.desc.deadline = 0 then true
  else decide (serialDist 48 a.2.desc.deadline b.2.desc.deadline < 0)

/-- The first of the tasks in the order of R276. -/
def bestOf (ptr : Nat) (l : List (Nat × TrkEntry)) : Option (Nat × TrkEntry) :=
  l.foldl (fun b x => match b with
    | none => some x
    | some y => if goesBefore ptr x y then some x else some y) none

/-- The tasks of a Station's tracker for which `p` holds, with their TASKIDs. -/
def State.tasksFor (s : State) (n : Nat) (p : TrkEntry → Bool) : List (Nat × TrkEntry) :=
  (s.trk.table.filter fun e => e.1 / 4096 == facetOf n && p e.2).map fun e => (e.1 % 4096, e.2)

/-- The next task of a Station in the tracker's table: tests, then serving, then audits (R276). -/
def State.nextTask (s : State) (n : Nat) : Option (Nat × TrkEntry) :=
  let l := s.tasksFor n (s.offered n)
  let best (p : Nat → Bool) : Option (Nat × TrkEntry) := bestOf (s.stn n).trackPtr (l.filter fun e => p e.2.desc.kind)
  ((best (· == 5)).orElse fun _ => best fun k => k != 2 && k != 5).orElse fun _ => best (· == 2)

/-- Frees the entry of a task that does not start, without a record (R273). -/
def State.refuseStart (s : State) (f t : Nat) (st : Status) : State :=
  let d := (s.entry f t).desc
  (s.setEntry f t .free).rejected f d st

/-- A move target (R313): tier and stack, and whether its fields are legal. -/
def moveTarget (w : Lns) : Nat × Nat × Bool :=
  let v := w.toNat
  let tt := bits v 15 14
  let k := bits v 3 0
  (tt, k, bits v 13 4 == 0 && (if tt = 0 then decide (k < 4) else if tt = 3 then k == 0 else true))

/-- Whether the handles of a KIND 1 task meet R313 and R314. -/
def State.movesOk (s : State) (e : TrkEntry) : Bool :=
  e.handles.all fun h =>
    let m := moveTarget h.scale
    h.hkind == 2 && !h.out && !h.scratch && h.base % 2 ^ 21 == 0 && h.nblk != 0 && h.nblk % 16384 == 0 && m.2.2 &&
    (pagesOf h.base (h.nblk * 128)).all fun g => match (s.page g).cls, m.1 with
      | .d, 3 => false
      | .wShared, 2 => false
      | _, _ => true

/-- The slots that a task starts with, after the save and restore of R162 to R165. The flag tells that a restore takes
place. -/
def Station.slotsFor (x : Station) (d : Desc) : Tab Slot × Bool :=
  if !d.retain then ([], false)
  else match x.saveArea with
    | some (p, t) => if p = d.parcel then (slotsOf t, true) else if x.owner = some d.parcel then (x.core.slots, false) else ([], false)
    | none => if x.owner = some d.parcel then (x.core.slots, false) else ([], false)

/-- The save of R163: the image of slots that their Parcel may retain is formed before another Parcel's task or a test. -/
def Station.saveSlots (x : Station) (d : Desc) : Station :=
  match x.owner with
  | some p =>
    if (d.kind = 5 ∨ p ≠ d.parcel) ∧ x.core.slots ≠ [] then { x with saveArea := some (p, saveImage x.core.slots) } else x
  | none => x

/-- The generators at a task's start (R60, R271): the first entry that names one gives its seed. -/
def seedGens (gens : Tab (BitVec 64)) (es : List GenEntry) (serial : Nat) (nonce : BitVec 64) : Tab (BitVec 64) :=
  (es.filter fun g => g.role != 0).reverse.foldl (fun t g =>
    let v := BitVec.ofNat 64 (serial <<< 40 ||| g.seed) ^^^ nonce
    fput t g.gen (if v = 0 then 1 else v)) gens

/-- The core at the first bundle of a task (R76, R144, R162, R217, R253). The first bundle is a step boundary (R254). -/
def StCore.begin (c : StCore) (t : Task) (slots : Tab Slot) : StCore :=
  let c := c.betweenTasks
  let c := { c with
    task := { t with detect := !c.chkCtl.getLsbD 0 }, pc := 0, tick := 0, atick := 0, loops := [], scalars := [], streams := [],
    vregs := [], vscale := [], slots := slots, prevs := [], tile := { id := 0, plane := 0, src := 0, amacs := [] }, tileId := 0,
    loadId := 0, gens := seedGens c.gens t.gens t.desc.serial t.nonce,
    stnStatus := (c.stnStatus &&& ~~~ 0x21#32) ||| (if t.desc.relaxed then 0x20#32 else 0#32) }
  { c with saved := c.save }

/-- The NONCE of a task: its instance's, else its Parcel's (R60, R61). A test has none. -/
def State.nonceOf (s : State) (d : Desc) : BitVec 64 :=
  if d.kind = 5 then 0
  else match (s.parcel d.parcel).insts.find? fun i => i.serial == d.serial with
    | some i => i.nonce
    | none => (s.parcel d.parcel).nonce

/-- Starts a task on a Station. -/
def State.begin (s : State) (n : Nat) (t : Task) : State :=
  let d := t.desc
  let s := s.modStn n fun x =>
    let x := x.saveSlots d
    let sl := x.slotsFor d
    { x with
      core := x.core.begin { t with dispatch := s.aon, nonce := s.nonceOf d } sl.1,
      mode := .running, snap := none, ops := [], doubt := none, held := none, replay := none, queued := [],
      cache := if d.kind = 5 ∨ x.owner = some d.parcel then x.cache else [],
      owner := if d.kind = 5 then x.owner else some d.parcel,
      saveArea := if d.kind = 5 then x.saveArea else none,
      scratch := x.scratch, preload := none }
  let s := (s.setSpow n .running).trkCount (facetOf n) .dispatched
  let s := if d.kind = 5 then s.trkCount (facetOf n) .katRuns else s
  let rs := s.ownersOf d
  let s := { s with dep := { s.dep with log := s.dep.log ++ (rs.map fun r => (r, n, s.aon)) } }
  let pgs := (t.handles.filter fun h => !h.scratch).flatMap fun h => pagesOf h.base (h.extent d.kind)
  let add (l : List Nat) : List Nat := pgs.foldl (fun l g => if l.contains g then l else g :: l) l
  rs.foldl (fun s r => s.modReq r fun q => { q with extents := add q.extents }) s

/-- Success qualifiers reach the requests of the task (R339). -/
def State.qualify (s : State) (d : Desc) (st : Status) : State :=
  let k := st.toNat
  if k = 0 ∨ 4 < k then s
  else (s.ownersOf d).foldl (fun s r => s.modReq r fun q => { q with qual := q.qual ||| 2 ^ (k - 1) }) s

/-- A task completes: its record, its tokens, its entry (R279, R288). -/
def State.finish (s : State) (f t : Nat) (r : List Byte) (st : Status) : State :=
  let d := (s.entry f t).desc
  let s := (s.putRecord r).qualify d st
  (s.sendTokens d false).freeEntry f t st

/-- The free entries of a tracker, from the one that Grenlor takes first (a free value). -/
def State.freeTids (s : State) (f : Nat) : List Nat :=
  ((List.range 4096).map fun i => (Config.freeTaskId s.free f + i) % 4096).filter fun t => (s.entry f t).st == .free

/-! ### Known-answer tests of the scheduler (R286) -/

/-- The descriptor of the test task of a Station, in entry `tid`: its program and tables lie in the system region. -/
def katDesc (n tid tgen nh ngen : Nat) : Desc :=
  { Desc.empty with dver := 1, kind := 5, ownkind := 2, facet := facetOf n, stmask := 2 ^ (n % 16), taskid := tid, tgen := tgen,
                    prog := 0xF0000000000, htab := 0xF0000000000, gtab := 0xF0000000000, nh := nh, ngen := ngen }

/-- The handles and generators of the test recipe, which the spec does not give (free values): those that check 10 and check 11 of R272
allow to a test that uses no handle outside the test window. -/
def State.katTables (s : State) (n : Nat) : List Handle × List GenEntry :=
  let d := katDesc n 0 0 0 0
  let hs := ((tableOf 16 16 (fit 0 256 Config.katHandles)).map handleOf).filter fun h => h.scratch && (s.handleCheck d h).isNone
  let gs := ((tableOf 8 64 (fit 0 512 Config.katGens)).map genOf).filter fun g => g.check.isNone
  (hs, if gensClash gs then [] else gs)

/-- The header of the test's program (free value); one that R231 refuses is no header of a test recipe. -/
def katImage : Image :=
  match imageOf Config.katHeader false with
  | .ok im => im
  | .error _ => .empty

/-- Whether the tracker holds a test that the scheduler has made for a Station: a missed test is not made twice (R287). -/
def State.hasTest (s : State) (n : Nat) : Bool :=
  s.trk.table.any fun e => e.1 / 4096 == facetOf n && e.2.st != .free && e.2.kat && e.2.desc.stmask == 2 ^ (n % 16)

/-- The test of a Station becomes READY in the tracker (R286): it takes a free entry, which the spec leaves to Grenlor (a free value), or
waits for one. -/
def State.makeTest (s : State) (n : Nat) : State :=
  if s.hasTest n ∨ s.isWithdrawn n then s
  else
    let f := facetOf n
    match (s.freeTids f).head? with
    | none => s.modStn n fun x => { x with katDue := true }
    | some tid =>
      let tb := s.katTables n
      let d := katDesc n tid (tget 0 s.mem.mgen 0).toNat tb.1.length tb.2.length
      let s := ({ s with free := s.free + 1 }.modStn n fun x => { x with katDue := false })
      let s := (s.submitTables f d tb .test false).1
      if (s.entry f tid).desc = d then s.setEntry f tid { s.entry f tid with kat := true } else s

/-! ### TASK_DISPATCH -/

/-- While a Station runs a task, the tracker picks its next task and loads that task's image into the second instruction buffer, in place
of one of lower order (R278). -/
def State.preloadNext (s : State) (n : Nat) : State :=
  match s.nextTask n with
  | some (_, e) => if e.kat ∨ (s.trackerRead (facetOf n) e.desc.prog 128).isSome then s else s.modStn n fun x =>
      if x.preload.any fun p => p.1 == e.desc then x else { x with preload := some (e.desc, s.rbytes e.desc.prog 128) }
  | none => s

/-- The header of a task's image: from the second instruction buffer when it is loaded there (R278), else from memory, whose read may be
refused (R305, R319, R326). -/
def State.imageFor (s : State) (n : Nat) (e : TrkEntry) : Except Status Image :=
  if e.kat then .ok katImage
  else match (s.stn n).preload.filter fun p => p.1 == e.desc with
    | some p => imageOf p.2 e.desc.relaxed
    | none => match s.trackerRead (facetOf n) e.desc.prog 128 with
      | some st => .error st
      | none => imageOf (s.rbytes e.desc.prog 128) e.desc.relaxed

/-- An expert task whose token count is 0 completes at once with status 0x0000 and its tokens, and occupies no Station (R211): the first
READY serving task, in the order of R276, that names Station `n`. -/
def State.zeroTask (s : State) (n : Nat) : State :=
  match bestOf (s.stn n).trackPtr (s.tasksFor n fun e => e.st == .ready && e.desc.kind == 0 && e.desc.stmask.testBit (n % 16)) with
  | none => s
  | some (tid, e) =>
    s.finish (facetOf n) tid (recordOf { Task.empty with desc := e.desc } 0 true 0 0 0 0 0 0) 0

/-- A free Station takes the task `e` of entry `tid` (R231, R273, R313, R353). -/
def State.takeTask (s : State) (n tid : Nat) (e : TrkEntry) (env : Env) : State :=
  let f := facetOf n
  let d := e.desc
  let s := s.modStn n fun x => { x with trackPtr := (tid + 1) % 4096 }
  match s.imageFor n e with
  | .error st => (s.modCore n fun c => c.statusRegs { st := st }).refuseStart f tid st
  | .ok im =>
    let restore := (((s.stn n).saveSlots d).slotsFor d).2
    if (env.of 0).ue ∧ !restore then let r := s.uncorrectable d.prog; r.1.refuseStart f tid r.2
    else if d.kind = 1 ∧ !s.movesOk e then s.refuseStart f tid 0x0180#16
    else if (e.handles.filter fun h => h.codec d.kind).any (fun h => !codecOk e.handles h)
        ∨ 8 < (e.handles.filter fun h => h.codec d.kind && (codecWord h.scale).cmode != 3).length then
      s.refuseStart f tid 0x0198#16
    else
      let tk : Task := { Task.empty with desc := d, handles := e.handles, gens := e.gens, image := im, kat := d.kind == 5 }
      let s := (s.setEntry f tid { s.entry f tid with st := .running, stn := some n, since := s.aon }).begin n tk
      if restore ∧ (env.of 0).ue then
        (s.modCore n fun c => { c with slots := [] }).endTask n { st := 0x0341#16, unit := 2 } 0
      else
        let r := s.decodeAll n tk env
        match r.2 with
        | none => r.1
        | some flt => r.1.endTask n flt 0

/-- TASK_DISPATCH (R211, R231, R276 to R278): a free Station takes its next task, a Station that runs one loads the next image; `zero` when
the task in turn is an expert task without tokens. -/
def taskDispatch (n : Nat) (zero : Bool) (t : Nat) (env : Env) (s : State) : State :=
  let s := s.tickTo t
  let s := if env.sram = .corrected then s.modCount .sramCorrected else s
  let s := if (s.stn n).katDue then s.makeTest n else s
  if zero then s.zeroTask n
  else if (s.stn n).mode = .running then s.preloadNext n
  else if !s.freeStn n ∨ env.late then s
  else match s.nextTask n with
  | none => if s.spow n = .running ∧ !s.hasWork n then s.setSpow n .ready else s
  | some (tid, e) => s.takeTask n tid e env

/-! ### Completion (R238, R288, R316) -/

/-- Whether a task's END has been reached and everything it started is done (R238). -/
def State.taskDone (s : State) (n : Nat) : Bool :=
  let x := s.stn n
  let c := x.core
  x.mode == .running && c.task.ended && c.tree.isEmpty && c.bruns.isEmpty && x.replay.isNone && x.queued.isEmpty
    && c.drains.isEmpty && c.packs.isEmpty && c.recs.isEmpty && c.fins.isEmpty
    && !(c.dmas.any fun m => !m.done) && x.wc.isEmpty && c.task.acksOut.isEmpty

/-- The moves of a KIND 1 task in handle order and ascending page order (R316). -/
def movesOf (f tid parcel : Nat) (hs : List Handle) : List Move :=
  hs.flatMap fun h =>
    let m := moveTarget h.scale
    (pagesOf h.base (h.nblk * 128)).map fun g =>
      { facet := f, tid := tid, parcel := parcel, rpage := g, ttier := m.1, tstack := m.2.1, started := false, dframe := 0,
        chunk := 0 }

/-- The tick by whose end the results that no event awaits are there: DFILL sets, strips and VTERN results (R170, R362). -/
def StCore.lateDue (c : StCore) : Nat :=
  (c.fills.map FillJob.due ++ c.strips.map StripJob.due ++ c.terns.map fun (j : TernDraw) => j.last + 1).foldl max 0

/-- TASK_COMPLETE (R238, R286 to R288, R316, R349, R353): `seals` are the half-blocks whose 512th token the task has written. -/
def taskComplete (n t : Nat) (katPass : Bool) (seals : List Seal) (env : Env) (s : State) : State :=
  let s := s.tickTo t
  if !s.taskDone n ∨ s.encodeWaits (s.core n).task then s
  else
    s.afterIdle n (s.core n).lateDue env fun s =>
    let s := s.modCore n fun c => c.closeAll []
    let r := s.encodeAll n (s.core n).task env
    match r.2 with
    | some flt => r.1.endTask n flt (r.1.core n).tick
    | none =>
      let s := r.1
      let c := s.core n
      let tk := c.task
      let d := tk.desc
      let own := s.ownEntry n
      let st := tk.status
      let r := recordOf tk n false st tk.endTick 0 0 0 (s.aon - tk.dispatch)
      if tk.kat then
        let s := if own then s.finish d.facet d.taskid r st else s.putRecord r
        let s := (s.modCore n fun c => { c with slots := [] }).stnIdle n
        if katPass then s.modStn n fun x => { x with lastKat := tk.dispatch }
        else s.katFailed [n] n 0 (s.stn n).lastKat
      else
        let ms := if d.kind = 1 then movesOf d.facet d.taskid d.parcel tk.handles else []
        let s := seals.foldl State.sealHalf s
        if ms.isEmpty then (s.finish d.facet d.taskid r st).stnIdle n
        else
          let e := s.entry d.facet d.taskid
          let s := s.setEntry d.facet d.taskid { e with stn := none, moves := ms.length, moved := st, rec0 := r }
          ({ s with mem := { s.mem with moves := s.mem.moves ++ ms } }).stnIdle n

/-! ### Deadlines and limits (R284, R285) -/

/-- DEADLINE_REACHED (R284, R204). -/
def deadlineReached (f tid t : Nat) (s : State) : State :=
  let s := s.tickTo t
  let e := s.entry f tid
  let d := e.desc
  if !s.pastDeadline d ∨ (e.st ≠ .waiting ∧ e.st ≠ .ready) then s
  else if d.kind = 2 then
    let k := 16 * f + ((List.range 16).find? fun k => d.stmask.testBit k).getD 0
    (s.modCore k fun c => (c.count .recExpired).statusRegs { st := 0x0753#16 }).endWaiting f tid 0x0753#16 0 false
  else if e.st = .waiting ∧ 0 < e.dept then (s.trkCount f .tierLate).endWaiting f tid 0x0770#16 0 true
  else (s.trkCount f .deadline).endWaiting f tid 0x0771#16 0 true

/-- RUN_LIMIT (R285): a task that has held its Station for 13,000 AON ticks is killed; a test that ends so has not the expected result
(R287). -/
def runLimit (n t : Nat) (s : State) : State :=
  let s := s.tickTo t
  let x := s.stn n
  let d := x.core.task.desc
  if (x.mode ≠ .running ∧ x.mode ≠ .rerun) ∨ s.aon < x.core.task.dispatch + 13000 then s
  else
    let late := match x.held with
      | some h => h.why.isFreeze
      | none => false
    let st : Status := if late then 0x0770#16 else 0x0772#16
    let run := s.ofRun d && d.kind != 5
    let s := (s.trkLast d.facet st).trkCount d.facet (if late then .tierLate else .deadline)
    let s := ((if run then s.dropInst d.parcel d.serial else s).killTask n st).cancelRest d run st
    let s := if run then s.notify d.parcel 0x0001 (taskDoneDetail d st) else s
    if x.core.task.kat then s.katFailed [n] n 0 x.lastKat else s

/-! ### Known-answer tests (R286, R287, R503) -/

/-- KAT_DUE (R286): the test of a Station falls due and becomes READY; a withdrawn Station runs none (R487), and a missed test is not made
twice (R287). -/
def katDue (n t : Nat) (s : State) : State :=
  let s := s.tickTo t
  if s.aon % 104000 ≠ 1625 * n then s else s.makeTest n

/-- The known-answer job of a Gate: its operands lie in the system region, at places the spec does not give. -/
def katJob : GateJob :=
  { logits := 0, v := 0, req := 0, parcel := 0, temp := 0, topp := 0, topk := 0, gstate := 0xFFFF, serial := 0, step := 0,
    maskid := 0xFFFF, gramid := 0xFFFF, kat := true }

/-- GATE_KAT_DUE (R503, R504): each Gate has one test job at the head of its queue, each Tier N and Tier H controller runs its
adder test, of which those of `fails` end wrong: the Stations of the controller's Facet are withdrawn, and atomic adds to it
end their tasks from then on. -/
def gateKatDue (fails : List (Fin 20)) (t : Nat) (s : State) : State :=
  let s := s.tickTo t
  let s := (List.range 4).foldl (fun s f => s.modGate f fun g => { g with queue := katJob :: g.queue.filter fun j => !j.kat }) s
  let s := (List.range 20).foldl (fun s k =>
    if fails.any fun c => c.val == k then s
    else { s with dep := { s.dep with adderKat := fput s.dep.adderKat k s.aon } }) s
  fails.foldl (fun s c =>
    if s.dep.adders.contains c.val then s
    else
      let f := if c.val < 4 then c.val else (c.val - 4) / 4
      let s := { s with dep := { s.dep with adders := c.val :: s.dep.adders } }
      s.katFailed ((List.range 16).map (16 * f + ·)) (64 + f) 2 (tget 0 s.dep.adderKat c.val)) s

def execTaskComplete (n : Stn) (t : Nat) (katPass : Bool) (seals : List Seal) (env : Env) (s : State)
    : Host.Outcome State Fault Refusal := .next (taskComplete n t katPass seals env s)
def execDescriptorSubmit (f : Facet) (desc : List Byte) (by_ : Submitter) (ue : Bool) (t : Nat) (s : State)
    : Host.Outcome State Fault Refusal := .next (descriptorSubmit f desc by_ ue t s)
def execCompletionToken (f : Facet) (toks : List (BitVec 64)) (t : Nat) (s : State) : Host.Outcome State Fault Refusal :=
  .next (completionToken f toks t s)
def execPendingTokenExpire (f : Facet) (t : Nat) (s : State) : Host.Outcome State Fault Refusal :=
  .next (pendingTokenExpire f t s)
def execDeadlineReached (f : Facet) (tid : BitVec 12) (t : Nat) (s : State) : Host.Outcome State Fault Refusal :=
  .next (deadlineReached f tid.toNat t s)
def execRunLimit (n : Stn) (t : Nat) (s : State) : Host.Outcome State Fault Refusal := .next (runLimit n t s)
def execKatDue (n : Stn) (t : Nat) (s : State) : Host.Outcome State Fault Refusal := .next (katDue n t s)
def execGateKatDue (fails : List (Fin 20)) (t : Nat) (s : State) : Host.Outcome State Fault Refusal :=
  .next (gateKatDue fails t s)

end Sys2Proof.Machine
end

