-- ==== Sys2Proof/Machine/Tiers.lean ====
section
/-!
DEFINITION. The memory tiers: frames, page moves (R313 to R317), Tier W writes and frame tags (R301, R306, R327), verifying
reads and mirrors (R320 to R322), unmaps (R297), scrubbing and zeroing (R323), heat (R324 to R326), and self-refresh (R488).
-/

namespace Sys2Proof.Machine

/-! ### Frames (R294, R299 to R301) -/

/-- The frames that a page occupies. -/
def PageEntry.frames (e : PageEntry) : List Nat :=
  frameKey (stackNum e.loc e.lstack) e.lframe
    :: ((if e.cls = .d then [] else [frameKey (20 + e.hstack) e.hframe])
      ++ if e.mirrored then [frameKey (20 + e.mstack) e.mframe] else [])

/-- Whether a frame can be given to a page: not of the system region (the first 256 MiB of Tier N), not in use, not waiting to
be zeroed or erased, and with programs left (R294, R301, R323). -/
def State.frameFree (s : State) (k f : Nat) : Bool :=
  let x := frameKey k f
  decide ((if k < 4 then 128 else 0) ≤ f) && !(s.mem.pages.any fun p => p.2.valid && p.2.frames.contains x)
    && !s.mem.zeroing.contains x && !(s.mem.moves.any fun m => m.started && m.ttier != 2 && frameKey m.dest m.dframe == x)
    && !(s.mem.wjobs.any fun j => frameKey j.stack j.frame == x)
    && (decide (k < 20) || (let t := tget .erased s.mem.tags x; t.tstate == 0 && decide (t.pcount < 10000)))

/-- The frame that Grenlor chooses in a stack: a free value among the free frames. -/
def State.pickFrame (s : State) (k : Nat) : State × Option Nat :=
  let n := framesOf k
  let c := Config.frameChoice s.mem.frameDraw
  ({ s with mem := { s.mem with frameDraw := s.mem.frameDraw + 1 } },
   ((List.range n).map fun i => (c + i) % n).find? fun f => s.frameFree k f)

/-! ### The work of a Tier W stack (R301, R306, R327) -/

/-- The program of a whole page into a frame: 8 chunks, then the tag. -/
def progJob (k f g : Nat) (why : WWhy) (data : Nat) (tag : Tag) : WJob :=
  { stack := k, frame := f, rpage := g, why := why, erase := false, chunks := 8, data := data, tag := some tag, busy := false }

/-- The tag of a page's frame; PGEN 0 stands for a new generation. -/
def tagFor (g : Nat) (e : PageEntry) (shared : Bool) (pgen : Nat) : Tag :=
  { rpage := g, cls := if shared then 2 else 1, tstate := 1, pgen := pgen, pcount := 0, parcel := e.owner }

/-- A tag rewritten as retired (R320). -/
def retireJob (s : State) (x g : Nat) : WJob :=
  { stack := x / 2 ^ 17, frame := x % 2 ^ 17, rpage := g, why := .retire, erase := false, chunks := 0, data := 0,
    tag := some { tget .erased s.mem.tags x with tstate := 2 }, busy := false }

/-- Copies bytes [lo, lo + len) of one frame to another. -/
def Mem.copyPart (m : Mem) (x y lo len : Nat) : Mem :=
  let inside (k o : Nat) : Bool := k / 2 ^ 21 == o && decide (lo ≤ k % 2 ^ 21 ∧ k % 2 ^ 21 < lo + len)
  let src := m.cells.filter fun c => inside c.1 x
  src.foldl (fun m c => m.put (y * 2 ^ 21 + c.1 % 2 ^ 21) c.2) { m with cells := m.cells.filter fun c => !inside c.1 y }

/-- A frame is retired (R301): counted, and recorded in the Cairn. -/
def State.frameRetired (s : State) (x : Nat) : State :=
  (s.memCount (x / 2 ^ 17) .retired).cairnEvent 0x0020 0 (natLe 1 (x / 2 ^ 17) ++ natLe 4 (x % 2 ^ 17))

/-! ### The end of a move (R315, R316) -/

def joinStatus (a b : Status) : Status := if a = 0 then b else if b = 0 then a else if b.toNat < a.toNat then b else a

/-- A move is over; with the last one its task completes (R316). -/
def State.moveDone (s : State) (m : Move) (q : Status) : State :=
  let alive := s.moveAlive m
  let s := s.dropMove m
  if !alive ∨ 4 ≤ m.facet then s
  else
    let e := s.entry m.facet m.tid
    let st := joinStatus e.moved q
    if e.moves ≤ 1 then s.finish m.facet m.tid (movedRecord st 0 0 (s.aon - e.since) e.rec0) st
    else s.setEntry m.facet m.tid { e with moves := e.moves - 1, moved := st }

/-! ### Quotas (R298) -/

/-- Whether a page counts for Parcel p in a tier (for Tier N, in the stack of a Facet). -/
def PageEntry.counts (e : PageEntry) (p tier stack : Nat) : Nat :=
  if !e.valid ∨ e.owner ≠ p then 0
  else if tier = 2 then (if e.cls = .d then 0 else 1 + b2n (e.cls == .wShared && e.mirrored))
  else b2n (e.loc == tier && e.cls != .wShared && (tier != 0 || e.lstack == stack))

/-- Whether a started move holds a frame for Parcel p in a tier. -/
def State.moveCounts (s : State) (p tier stack : Nat) : Nat :=
  (s.mem.moves.filter fun m => m.started && m.ttier == tier && (tier != 0 || m.tstack == stack)
    && (s.page m.rpage).owner == p && (s.page m.rpage).cls != .wShared).length

/-- The Tier N pages of a Facet that a Parcel's masks and grammar tables take: they count against its quota (R424). -/
def Parcel.objectPages (q : Parcel) (p f : Nat) : Nat :=
  let size (k : Nat) (b : List Byte) : Nat := if Config.objectPlace p k % 4 = f then ceilDiv b.length 64 * 64 else 0
  ceilDiv ((q.masks.map fun x => size x.1 x.2).sum + (q.grammars.map fun x => size (64 + x.1) x.2).sum) (2 ^ 21)

/-- The pages of a Parcel in a tier, page `but` apart. -/
def State.usage (s : State) (p tier stack but : Nat) : Nat :=
  (s.mem.pages.map fun x => if x.1 = but then 0 else x.2.counts p tier stack).sum + s.moveCounts p tier stack
    + (if tier = 0 then (s.parcel p).objectPages p stack else 0)

def Parcel.quota (p : Parcel) (tier stack : Nat) : Nat :=
  if tier = 0 then p.quotaN.getD stack 0 else if tier = 1 then p.quotaH else p.quotaW

/-! ### PAGE_MOVE_START -/

/-- Whether a move may begin after the moves `before` it: no earlier one of its task or to its controller is unfinished, its
page is not moving or leaving, and no atomic add is on its way to a block that touches the page (R172, R315 to R317). -/
def State.moveReady (s : State) (before : List Move) (m : Move) : Bool :=
  let e := s.page m.rpage
  !m.started
    && !(before.any fun b => (b.facet == m.facet && b.tid == m.tid) || (m.ttier != 3 && b.ttier != 3 && b.dest == m.dest))
    && e.st != .moving && e.st != .programming && e.st != .unmapPending && e.st != .restoring
    && !(e.cls == .wShared && e.st == .poisoned)
    && !(s.mem.moves.any fun b => b.started && b.rpage == m.rpage)
    && !(s.mem.atomics.any fun a => (pagesOf a.addr 1544).contains m.rpage)

def State.firstMove (s : State) (before : List Move) : List Move → Option Move
  | [] => none
  | m :: r => if s.moveReady before m then some m else State.firstMove s (before ++ [m]) r

/-- Whether an open stream of a running task reads a page (R315). -/
def State.streamReads (s : State) (g : Nat) : Bool :=
  s.stns.any fun x => (x.2.mode == .running || x.2.mode == .rerun) && x.2.core.streams.any fun r =>
    match x.2.core.handleOf r.2 with
    | some h => !h.scratch && (pagesOf h.base (h.extent x.2.core.task.desc.kind)).contains g
    | none => false

/-- The shared working area of a stack, in pages (R298, R442). -/
def State.sharedArea (s : State) (tier stack : Nat) : Nat :=
  match s.cfg (if tier = 0 then 0x0008 else 0x0009) 0xFF stack with
  | some b => le b 0 4
  | none => 0

/-- The working copies of shared pages in a stack, by the age of their last read, oldest first. -/
def State.sharedCopies (s : State) (tier stack : Nat) : List Nat :=
  (tkeys (s.mem.pages.filter fun p => p.2.valid && p.2.cls == .wShared && p.2.loc == tier && p.2.lstack == stack)).mergeSort
    fun a b => decide (tget 0 s.mem.workRead a ≤ tget 0 s.mem.workRead b)

/-- A working copy is dropped: reads go to the home. -/
def State.dropCopy (s : State) (g : Nat) : State :=
  let e := s.page g
  if e.cls = .d ∨ e.loc = 2 then s
  else (s.setPage g { e with loc := 2, lstack := e.hstack, lframe := e.hframe }).releaseFrame (stackNum e.loc e.lstack) e.lframe

/-- The die of a stack: a Facet, or 4 and 5 for the Girdles (R17). -/
def dieOf (k : Nat) : Nat := if k < 4 then k else if k < 20 then (k - 4) / 4 else 4 + (k - 20) / 8

/-- Whether a path remains between the dies of two stacks for a page (R20, R307): Tier W data does not cross the seam between the
Girdles. -/
def State.pathStk (s : State) (a b g : Nat) : Bool :=
  let x := dieOf a
  let y := dieOf b
  if x < 4 then s.pathTo x b (g * 2 ^ 21)
  else if y < 4 then s.pathTo y a (g * 2 ^ 21)
  else x == y || (List.range 4).any fun f => s.seamUp (fgSeam f 0) && s.seamUp (fgSeam f 1)

/-- What refuses the access of a move to its stacks: a stack that is too hot, for a Tier W target only above 105 °C as for reads, a source out
of service, no path (R20, R305, R317, R326). The status comes with the stack that refuses. -/
def State.moveCheck (s : State) (m : Move) : Option (Status × Nat) :=
  let e := s.page m.rpage
  let src := stackNum e.loc e.lstack
  if (s.stack src).refuse then some (0x0410#16, src)
  else if (s.stack m.dest).refuse then some (0x0410#16, m.dest)
  else if !(s.stack src).status.getLsbD 4 then some (0x0383#16, src)
  else if !s.pathStk src m.dest m.rpage then some (0x0540#16, src)
  else none

/-- A move that its stacks refuse fails; a refusal for heat is counted (R326, R331). -/
def State.moveOr (s : State) (m : Move) (k : State → State) : State :=
  match s.moveCheck m with
  | some (st, stk) => (if st = 0x0410#16 then s.memCount stk .refused else s).moveFail m st
  | none => k s

/-- Reserves a frame and begins the copy of a page to Tier N or H. With no free frame the move waits. -/
def State.beginCopy (s : State) (m : Move) : State :=
  s.moveOr m fun s =>
    let e := s.page m.rpage
    let r := s.pickFrame m.dest
    match r.2 with
    | none => s
    | some f =>
      let m' := { m with started := true, dframe := f }
      { r.1 with mem := { r.1.mem with moves := r.1.mem.moves.map fun x => if x = m then m' else x } }.setPage m.rpage
        { e with st := .moving }

/-- Begins the program of a page into Tier W. A poisoned page stays so until its program has ended (R319). -/
def State.beginProgram (s : State) (m : Move) : State :=
  let e := s.page m.rpage
  let q := s.parcel e.owner
  if q.quotaW < s.usage e.owner 2 0 m.rpage + 1 then s.moveFail m 0x0280#16
  else s.moveOr m fun s =>
    let r := s.pickFrame m.dest
    match (if (s.stack m.dest).status.getLsbD 4 then r.2 else none) with
    | none => s.moveFail m 0x0281#16
    | some f =>
      let m' := { m with started := true, dframe := f }
      let s := { r.1 with mem := { r.1.mem with moves := r.1.mem.moves.map fun x => if x = m then m' else x } }
      (s.setPage m.rpage { e with st := if e.st = .poisoned then .poisoned else .programming }).addJob
        (progJob m.dest f m.rpage (.move m.facet m.tid) (frameKey (stackNum e.loc e.lstack) e.lframe)
          (tagFor m.rpage e false 0))

/-- The move of a shared page to a working area (R314, R315). -/
def State.beginShared (s : State) (m : Move) : State :=
  let e := s.page m.rpage
  if e.loc ≠ 2 then s.moveDone m (if e.loc = m.ttier ∧ e.lstack = m.tstack then 0 else 0x0004#16)
  else
    let cs := s.sharedCopies m.ttier m.tstack
    if cs.length < s.sharedArea m.ttier m.tstack then s.beginCopy m
    else match cs.find? fun g => !s.streamReads g && (s.page g).st == .resident with
      | some g => if s.sharedArea m.ttier m.tstack = 0 then s.moveDone m 0x0004#16 else (s.dropCopy g).beginCopy m
      | none => s.moveDone m 0x0004#16

/-- Starts a move by the table of R314. -/
def State.beginMove (s : State) (m : Move) : State :=
  let e := s.page m.rpage
  let here := e.loc == m.ttier && e.lstack == m.tstack
  if !s.moveAlive m then s.dropMove m
  else if !e.valid then s.moveDone m 0
  else match e.cls, m.ttier with
    | .d, 3 => s.moveFail m 0x0180#16
    | .wShared, 2 => s.moveFail m 0x0180#16
    | .wShared, 3 => s.moveDone m (if e.loc = 2 then 0 else 0x0004#16)
    | .wShared, _ => s.beginShared m
    | .wPrivate, 3 => (s.dropCopy m.rpage).moveDone m 0
    | .wPrivate, 2 => if e.hstack = m.tstack ∧ e.st ≠ .poisoned then s.moveDone m 0 else s.beginProgram m
    | .d, 2 => s.beginProgram m
    | _, t =>
      if here then s.moveDone m 0
      else if (s.parcel e.owner).quota t m.tstack < s.usage e.owner t m.tstack m.rpage + 1 then s.moveFail m 0x0280#16
      else if e.st = .poisoned then s.moveFail m 0x0382#16
      else s.beginCopy m

/-- PAGE_MOVE_START (R315). -/
def pageMoveStart (t : Nat) (s : State) : State :=
  let s := s.tickTo t
  match s.firstMove [] s.mem.moves with
  | none => s
  | some m => s.beginMove m

/-! ### PAGE_MOVE_FLIP -/

/-- The first poisoned sector of `len` bytes of a frame from `lo` on (R319). -/
def State.framePoison (s : State) (x lo len : Nat) : Option Nat :=
  (s.mem.poison.find? fun k => k / 2 ^ 15 == x && decide (lo ≤ k % 2 ^ 15 * 64 ∧ k % 2 ^ 15 * 64 < lo + len)).map fun k => k % 2 ^ 15

/-- PAGE_MOVE_FLIP (R315, R317): the copy to a stack is complete, or has met an uncorrectable error in sector `ue` of its source; a
poisoned sector is one too (R319). -/
def pageMoveFlip (k : Nat) (ue : Option Nat) (t : Nat) (s : State) : State :=
  let s := s.tickTo t
  match s.mem.moves.find? fun m => m.started && m.ttier < 2 && m.dest == k with
  | none => s
  | some m =>
    let e := s.page m.rpage
    let sk := stackNum e.loc e.lstack
    match ue, s.framePoison (frameKey sk e.lframe) 0 (2 ^ 21) with
    | some x, _ => (s.uncorrectable (m.rpage * 2 ^ 21 + x * 64)).1
    | none, some x => s.moveFail m 0x0380#16 (m.rpage * 2 ^ 21 + x * 64)
    | none, none => s.moveOr m fun s =>
      let s := { s with mem := s.mem.copyFrame sk e.lframe k m.dframe }
      let s := s.setPage m.rpage { e with st := s.settled m.rpage, loc := m.ttier, lstack := m.tstack, lframe := m.dframe }
      let s := ((s.memCount k .movesIn).noteAcc k).noteAcc sk
      let s := if e.loc = 2 then s else s.releaseFrame sk e.lframe
      s.moveDone m 0

/-! ### TIER_W_WRITE_COMPLETE -/

/-- A tag is written: PGEN and PCOUNT take their values (R306). A tag that a frame already has is rewritten without a program. -/
def State.writeTag (s : State) (x : Nat) (t : Tag) : State :=
  let old := tget .erased s.mem.tags x
  let pg := if t.tstate = 1 ∧ t.pgen = 0 then s.mem.pgen + 1 else t.pgen
  let prog := t.tstate == 1 && !(old.tstate == 1 && old.pgen == pg)
  let pc := old.pcount
  let s := { s with mem := { s.mem with pgen := max s.mem.pgen pg,
                                        tags := fput s.mem.tags x { t with pgen := pg,
                                                                           pcount := if prog then pc + 1 else pc } } }
  if t.tstate = 2 ∨ (prog ∧ 10000 ≤ pc + 1) then s.frameRetired x else s

/-- The stack of a new mirror (R320, step 6): Grenlor's choice among those in service other than the home's, a free value. -/
def State.mirrorStack (s : State) (home : Nat) : Option Nat :=
  ((List.range 16).map fun i => (Config.mirrorStackChoice s.mem.frameDraw + i) % 16).find? fun k =>
    k != home && (s.stack (20 + k)).status.getLsbD 4

/-- Programs a new mirror of a shared page from its home (R320, step 6). -/
def State.remirror (s : State) (g : Nat) : State :=
  let e := s.page g
  match s.mirrorStack e.hstack with
  | none => s
  | some k =>
    let r := s.pickFrame (20 + k)
    match r.2 with
    | none => r.1
    | some f =>
      let x := frameKey (20 + e.hstack) e.hframe
      r.1.addJob (progJob (20 + k) f g .mirror x (tagFor g e true (tget .erased s.mem.tags x).pgen))

/-- The page is programmed into its new home (R314, R320, R323). -/
def State.jobEnd (s : State) (j : WJob) : State :=
  let g := j.rpage
  let e := s.page g
  let k := j.stack - 20
  match j.why with
  | .move f tid =>
    match s.mem.moves.find? fun m => m.facet == f && m.tid == tid && m.rpage == g && m.started with
    | none => s.releaseFrame j.stack j.frame
    | some m =>
      let s := s.memCount j.stack .movesIn
      let home : PageEntry := { e with cls := .wPrivate, st := s.settled g, hstack := k, hframe := j.frame }
      let s := if e.cls = .d ∨ e.loc = 2 then
          (s.setPage g { home with loc := 2, lstack := k, lframe := j.frame }).releaseFrame (stackNum e.loc e.lstack) e.lframe
        else (s.setPage g home).releaseFrame (20 + e.hstack) e.hframe
      s.moveDone m 0
  | .mirror =>
    let s := s.setPage g { e with cls := .wShared, mirrored := true, mstack := k, mframe := j.frame }
    if e.cls ≠ .wPrivate then s
    else
      let t := tget .erased s.mem.tags (frameKey (20 + e.hstack) e.hframe)
      s.addJob { stack := 20 + e.hstack, frame := e.hframe, rpage := g, why := .retire, erase := false, chunks := 0, data := 0,
                 tag := some { t with cls := 2 }, busy := false }
  | .reload =>
    let s := s.setPage g { e with st := .resident, loc := 2, lstack := k, lframe := j.frame, hstack := k, hframe := j.frame,
                                  mirrored := false }
    let s := e.frames.eraseDups.foldl (fun s x => s.releaseFrame (x / 2 ^ 17) (x % 2 ^ 17))
      { s with mem := { s.mem with lost := s.mem.lost.erase g } }
    let s := s.cairnEvent 0x0021 0 (natLe 4 g ++ natLe 1 1)
    (e.parcels.foldl (fun s p => s.notify p 0x0022 (weightDetail g 0 j.stack)) s).remirror g
  | .scrub =>
    if e.mirrored ∧ frameKey (20 + e.mstack) e.mframe = j.data then
      (s.setPage g { e with mstack := k, mframe := j.frame }).releaseFrame (j.data / 2 ^ 17) (j.data % 2 ^ 17)
    else
      let e' := { e with hstack := k, hframe := j.frame }
      let e' := if e.loc = 2 then { e' with lstack := k, lframe := j.frame } else e'
      (s.setPage g e').releaseFrame (j.data / 2 ^ 17) (j.data % 2 ^ 17)
  | .retire => s
  | .erase => s
  | .abandoned => s.releaseFrame j.stack j.frame

/-- A frame has been erased: it reads as zero and is free (R301). -/
def State.frameErased (s : State) (x : Nat) : State :=
  let t := tget .erased s.mem.tags x
  { s with mem := { s.mem.clearFrame (x / 2 ^ 17) (x % 2 ^ 17) with
                      zeroing := s.mem.zeroing.erase x,
                      poison := s.mem.poison.filter fun k => k / 2 ^ 15 != x,
                      tags := fput s.mem.tags x { Tag.erased with pcount := t.pcount } } }

/-- The write under way on a stack ends, and the next may start. -/
def State.writeDone (s : State) (j : WJob) : State :=
  let x := frameKey j.stack j.frame
  let rest := s.mem.wjobs.erase j
  let s := if j.erase then ({ s with mem := { s.mem with wjobs := rest } }).frameErased x
    else if j.why = .abandoned then ({ s with mem := { s.mem with wjobs := rest } }).releaseFrame j.stack j.frame
    else if 0 < j.chunks then
      let j' := { j with chunks := j.chunks - 1, busy := false }
      let m := s.mem.copyPart j.data x ((8 - j.chunks) * 2 ^ 18) (2 ^ 18)
      { s with mem := { m with wjobs := m.wjobs.map fun y => if y = j then j' else y } }.memCount j.stack .progChunks
    else
      let s := { s with mem := { s.mem with wjobs := rest } }
      let s := match j.tag with
        | some t => s.writeTag x t
        | none => s
      s.jobEnd j
  s.startW j.stack

/-! ### Verifying reads (R320, R321) -/

/-- VERIFY_READ_COMPLETE (R320 steps 4 to 6, R321). -/
def verifyReadComplete (g : Nat) (ok : Bool) (s : State) : State :=
  match s.mem.verify.find? fun v => v.1 == g with
  | none => s
  | some v =>
    let s := { s with mem := { s.mem with verify := s.mem.verify.erase v } }
    let e := s.page g
    if !ok then s.losePage g v.2.1
    else
      let k := v.2.1 - 20
      let moved := decide (e.hstack ≠ k ∨ e.hframe ≠ v.2.2)
      let old := frameKey (20 + e.hstack) e.hframe
      let s := s.setPage g { e with st := s.settled g, loc := 2, lstack := k, lframe := v.2.2, hstack := k, hframe := v.2.2,
                                    mirrored := if moved then false else e.mirrored }
      let s := s.cairnEvent 0x0021 0 (natLe 4 g ++ natLe 1 1)
      let s := e.parcels.foldl (fun s p => s.notify p 0x0022 (weightDetail g 0 v.2.1)) s
      if moved then let s := s.remirror g; s.addJob (retireJob s old g) else s

/-! ### Unmapping (R297) -/

/-- Whether raising a Parcel's generation must wait: a task of the generation 128 below the present remains. -/
def State.genBlocked (s : State) (p : Nat) : Bool :=
  s.trk.table.any fun e => e.2.st != .free && e.2.desc.parcel == p
    && (BitVec.ofNat 8 e.2.desc.tgen) == (tget 0 s.mem.mgen p) - 128#8

/-- The generation rises and the pages are unmap pending; with `drop` they leave the map at the end. A poisoned page that stays
keeps its STATE, and the unmap of one that moves or is programmed waits for that to end (R317, R548). -/
def State.unmapNow (s : State) (p : Nat) (gs : List Nat) (drop : Bool) : State :=
  let n := tget 0 s.mem.mgen p + 1
  let s := s.invalidateParcel p
  let s := { s with mem := { s.mem with mgen := fput s.mem.mgen p n,
                                        unmaps := s.mem.unmaps ++ (gs.map fun g => (g, p, n, drop)) } }
  gs.foldl (fun s g =>
    let e := s.page g
    if e.st = .moving ∨ e.st = .programming then s
    else if drop ∨ e.st = .resident then s.setPage g { e with st := .unmapPending } else s) s

/-- Unmaps pages of a Parcel, at once or when the generation may rise. -/
def State.unmap (s : State) (p : Nat) (gs : List Nat) (drop : Bool) : State :=
  if s.genBlocked p then { s with mem := { s.mem with unmapWait := s.mem.unmapWait ++ [(p, gs, drop)] } }
  else s.unmapNow p gs drop

/-- Unmaps that waited proceed as their Parcels' generations may rise. -/
def State.retryUnmaps (s : State) : State :=
  s.mem.unmapWait.foldl (fun s w =>
    if s.genBlocked w.1 then s
    else { s with mem := { s.mem with unmapWait := s.mem.unmapWait.erase w } }.unmapNow w.1 w.2.1 w.2.2) s

/-- Whether a task accepted under a generation before `n` remains. -/
def State.oldTask (s : State) (p : Nat) (n : BitVec 8) : Bool :=
  s.trk.table.any fun e => e.2.st != .free && e.2.desc.parcel == p && decide (serialDist 8 e.2.desc.tgen n.toNat < 0)

/-- The frames of a page are released and its entry becomes unmapped. -/
def State.dropPage (s : State) (g : Nat) : State :=
  let e := s.page g
  e.frames.eraseDups.foldl (fun s x => s.releaseFrame (x / 2 ^ 17) (x % 2 ^ 17)) (s.setPage g .none)

/-- The completion of an unmap (R297): no task accepted under an earlier generation remains; it waits for the end of a move
(R317). The page leaves the map, or, when a share was withdrawn, the bits leave its SHAREMASK and it is resident again. -/
def State.unmapEnd (s : State) (g : Nat) : State :=
  let us := s.mem.unmaps.filter fun u => u.1 == g
  if us.isEmpty ∨ us.any (fun u => s.oldTask u.2.1 u.2.2.1) ∨ s.mem.moves.any (fun m => m.rpage == g && m.started) then s
  else
    let s := { s with mem := { s.mem with unmaps := s.mem.unmaps.filter fun u => u.1 != g } }
    let e := s.page g
    if us.any (·.2.2.2) then s.dropPage g
    else
      let share := us.foldl (fun m u => m &&& ~~~ (1#16 <<< u.2.1)) e.share
      s.setPage g { e with share := share, st := if e.st = .unmapPending then .resident else e.st }

/-! ### Zeroing and scrubbing (R323) -/

/-- FRAME_ZEROING_COMPLETE: a released frame is zeroed (Tier N and H) or erased (Tier W). -/
def frameZeroingComplete (k f : Nat) (s : State) : State :=
  let x := frameKey k f
  if !s.mem.zeroing.contains x then s
  else if k < 20 then
    { s with mem := { s.mem.clearFrame k f with zeroing := s.mem.zeroing.erase x,
                                                poison := s.mem.poison.filter fun p => p / 2 ^ 15 != x } }
  else match s.wjob k with
    | some j => if j.busy ∧ j.erase ∧ j.frame = f then s.writeDone j else s
    | none => s

/-- The page that a frame belongs to. -/
def State.pageOf (s : State) (x : Nat) : Option Nat :=
  (s.mem.pages.find? fun p => p.2.valid && p.2.frames.contains x).map (·.1)

/-- An uncorrectable error that the scrub finds in a frame (R323): handled as a read of the page would be when the frame is
the one that reads use; a bad home behind a working copy poisons the page; a bad mirror is notified and replaced, since no read was
served from it (DESIGN CHOICE, log entry 43). -/
def State.scrubError (s : State) (x sector : Nat) : State :=
  let k := x / 2 ^ 17
  match s.pageOf x with
  | none => (s.modStack k fun y => { y with status := setB y.status 1 }).memCount k .ue
  | some g =>
    let e := s.page g
    if frameKey (stackNum e.loc e.lstack) e.lframe = x then (s.uncorrectable (g * 2 ^ 21 + sector * 64 % 2 ^ 21)).1
    else
      let s := (s.modStack k fun y => { y with status := setB y.status 1 }).memCount k .ue
      if e.mirrored ∧ frameKey (20 + e.mstack) e.mframe = x then
        let s := e.parcels.foldl (fun s p => s.notify p 0x0020 (weightDetail g 0x0381#16 k)) s
        let s := (s.setPage g { e with mirrored := false }).remirror g
        s.addJob (retireJob s x g)
      else
        ((s.setPage g { e with loc := 2, lstack := e.hstack, lframe := e.hframe }).releaseFrame (stackNum e.loc e.lstack)
          e.lframe).uncorrectable (g * 2 ^ 21) |>.1

/-- PATROL_SCRUB (R318, R319, R320, R323): `corrected` is the largest number of corrections that a codeword needed. -/
def patrolScrub (k f sector corrected : Nat) (ue : Bool) (t : Nat) (s : State) : State :=
  let s := s.tickTo t
  let x := frameKey k f
  let s := if corrected = 0 then s
    else (s.modStack k fun y => { y with status := setB y.status 0 }).memCount k .ce
  if ue then s.scrubError x sector
  else if k < 20 ∨ corrected ≤ 32 ∨ s.mem.wjobs.any (fun j => j.data == x && j.why == .scrub) then s
  else match s.pageOf x with
    | none => s
    | some g =>
      let e := s.page g
      let r := s.pickFrame k
      match r.2 with
      | none => r.1
      | some f' =>
        let sh := e.cls == .wShared
        r.1.addJob (progJob k f' g .scrub x (tagFor g e sh (if sh then (tget .erased s.mem.tags x).pgen else 0)))

/-- The source of a job meets an uncorrectable error in a sector: handled as an error of that frame, and the job's frame is given back; a
page that was to be reloaded stays poisoned (R317, R319 to R321). -/
def State.sourceError (s : State) (j : WJob) (sector : Nat) : State :=
  let s := { s with mem := { s.mem with wjobs := s.mem.wjobs.map fun y => if y = j then { j with why := .abandoned } else y } }
  let s := match j.why with
    | .reload => s.setPage j.rpage { s.page j.rpage with st := .poisoned }
    | _ => s
  s.scrubError j.data sector

/-- The sector of its source that the chunk of a job cannot read: the one that meets an error, or a poisoned one (R319). -/
def State.jobError (s : State) (j : WJob) (ue : Option Nat) : Option Nat :=
  if j.erase ∨ j.chunks = 0 ∨ j.why = .abandoned then none else ue.orElse fun _ => s.framePoison j.data ((8 - j.chunks) * 2 ^ 18) (2 ^ 18)

/-- TIER_W_WRITE_COMPLETE (R317, R327): the write under way on a stack ends; `ue` is a sector of its source that cannot be read. -/
def tierWWriteComplete (w : Nat) (ue : Option Nat) (t : Nat) (s : State) : State :=
  let s := s.tickTo t
  match s.wjob (20 + w) with
  | none => s
  | some j =>
    if !j.busy then s
    else match s.jobError j ue with
    | none => s.writeDone j
    | some x => (s.sourceError j x).writeDone { j with why := .abandoned }

/-! ### Heat (R324 to R326, R512) -/

/-- The highest reading of a Facet's stacks, and what its die adds to the duty loop. -/
def State.facetHot (s : State) (f : Nat) : Nat :=
  (f :: (List.range 4).map fun i => 4 + 4 * f + i).foldl (fun m k => max m (s.stack k).temp) 0

/-- The duty loop of R325 for the present round of readings: readings within 1 ms of the first of a round belong to it, and
the duty is that before the round with one step. -/
def State.dutyLoop (s : State) (f : Nat) : State :=
  let old := s.mem.round.find? fun r => r.1 == f
  let base : Nat × Nat := match old with
    | some (_, r) => if s.aon < r.1 + 13000 then r else (s.aon, s.dutyOf f)
    | none => (s.aon, s.dutyOf f)
  let d := tget .reset s.dep.dies f
  let hot := s.facetHot f
  let k := base.2
  let k' := if (340 ≤ hot ∨ 1 ≤ d.band) ∧ 1 < k then k - 1
    else if hot < 328 ∧ d.temp < 388 ∧ d.band = 0 ∧ k < 8 then k + 1 else k
  { s with duty := fput s.duty f k', mem := { s.mem with round := fput s.mem.round f base } }

/-- A stack with its latest reading in 0.25 °C (R324, R330). -/
def Stack.heat (x : Stack) (w : Bool) (v : Nat) : Stack :=
  let keep (on : Bool) (lo hi : Nat) : Bool := decide (hi ≤ v) || (on && decide (lo ≤ v))
  if w then { x with temp := v, suspend := keep x.suspend 320 340, refuse := keep x.refuse 400 420 }
  else { x with temp := v, duty := keep x.duty 328 340, halved := keep x.halved 368 380, refuse := keep x.refuse 400 420 }

/-- Acts on a reading of a stack. A stack that refuses traffic ends the moves from and to it (R317, R326). -/
def State.stackHeat (s : State) (k v : Nat) : State :=
  let s := (s.modStack k fun x => x.heat (decide (20 ≤ k)) v).cairnTemp 0x0010 k v
  let uses (m : Move) : Bool := m.dest == k || (let e := s.page m.rpage; stackNum e.loc e.lstack == k)
  let s := if (s.stack k).refuse then
      (s.memCount k .refused (s.mem.moves.countP fun m => m.started && uses m)).failMoves uses 0x0410#16
    else s
  if k < 20 then s.dutyLoop (if k < 4 then k else (k - 4) / 4) else s.startW k

/-- STACK_TEMP_READING (R324, R325). -/
def stackTempReading (k v t : Nat) (s : State) : State := (s.tickTo t).stackHeat k v

/-- STACK_RFM_REQUEST (R300). -/
def stackRfmRequest (h : Nat) (s : State) : State :=
  (s.modStack (4 + h) fun x => { x with rfm := x.rfm + 1 }).emit (.rfm (4 + h))

/-- SELF_REFRESH_ENTRY (R300, R488). -/
def selfRefreshEntry (k t : Nat) (s : State) : State :=
  let s := s.tickTo t
  let f := if k < 4 then k else (k - 4) / 4
  let quiet := (List.range 16).all fun i => s.spow (16 * f + i) == .parked || s.spow (16 * f + i) == .off
  if quiet ∧ (s.stack k).lastAcc + 1300 ≤ s.aon then s.modStack k fun x => { x with selfRef := true } else s

/-- SELF_REFRESH_EXIT (R488). -/
def selfRefreshExit (k t : Nat) (s : State) : State := (s.tickTo t).modStack k fun x => { x with selfRef := false }

/-! ### Write combining (R311) -/

/-- WRITE_COMBINE_FLUSH (R311, R317): a buffer that has received no byte for 64 fabric cycles; one of a page that moves waits for the
flip. -/
def writeCombineFlush (n region : Nat) (env : Env) (s : State) : State :=
  match (s.stn n).wc.find? fun b => b.region == region with
  | none => s
  | some b =>
    if s.movingAt (region * 1024) 1 then s
    else
      let r := (s.modStn n fun x => { x with wc := x.wc.filter fun y => y.region != region }).flushBuf n b env.rmw
      match r.2 with
      | none => r.1
      | some f => if (r.1.stn n).mode = .running then
          r.1.stopTask n { st := f.1, addr := f.2, unit := 5 } else r.1

/-! ### The meanings -/

def execWriteCombineFlush (n : Stn) (region : Nat) (env : Env) (s : State) : Host.Outcome State Fault Refusal :=
  .next (writeCombineFlush n region env s)
def execPageMoveStart (t : Nat) (s : State) : Host.Outcome State Fault Refusal := .next (pageMoveStart t s)
def execVerifyReadComplete (rpage : BitVec 23) (ok : Bool) (s : State) : Host.Outcome State Fault Refusal :=
  .next (verifyReadComplete rpage.toNat ok s)
def execTierWWriteComplete (w : Fin 16) (ue : Option (BitVec 15)) (t : Nat) (s : State) : Host.Outcome State Fault Refusal :=
  .next (tierWWriteComplete w (ue.map (·.toNat)) t s)
def execPatrolScrub (stack : Fin 36) (frame sector corrected : Nat) (ue : Bool) (t : Nat) (s : State)
    : Host.Outcome State Fault Refusal :=
  .next (patrolScrub stack frame sector corrected ue t s)
def execStackTempReading (stack : Fin 36) (temp : BitVec 10) (t : Nat) (s : State) : Host.Outcome State Fault Refusal :=
  .next (stackTempReading stack temp.toNat t s)
def execStackRfmRequest (h : Fin 16) (s : State) : Host.Outcome State Fault Refusal := .next (stackRfmRequest h s)
def execSelfRefreshEntry (stack : Fin 20) (t : Nat) (s : State) : Host.Outcome State Fault Refusal :=
  .next (selfRefreshEntry stack t s)
def execSelfRefreshExit (stack : Fin 20) (t : Nat) (s : State) : Host.Outcome State Fault Refusal :=
  .next (selfRefreshExit stack t s)

end Sys2Proof.Machine
end

