-- ==== Sys2Proof/Machine/Links.lean ====
section
/-!
DEFINITION. The links inside the package that carry flits in order with replay: the weight-store links (R302 to R305) and the
seams (R18 to R20).
-/

namespace Sys2Proof.Machine

/-! ### Flits in order -/

/-- What becomes of a flit by its check and its SEQ of `w` bits: taken in order, a repeat, or to be sent again. -/
inductive Rx where
  | take | again | nak
  deriving DecidableEq, Repr

def LinkDir.check (d : LinkDir) (w seq : Nat) (ok : Bool) : Rx :=
  if !ok then .nak
  else
    let k := serialDist w seq d.expect
    if k = 0 then .take else if k < 0 then .again else .nak

/-- The direction after a flit is taken in order: it stays unacknowledged until its ACK. -/
def LinkDir.took (d : LinkDir) (w : Nat) : LinkDir :=
  { d with expect := (d.expect + 1) % 2 ^ w, send := (d.expect + 1) % 2 ^ w, unacked := d.unacked ++ [d.expect] }

/-- The direction after its receiver has taken a flit that this model's sender had put on it. -/
def LinkDir.arrived (d : LinkDir) (w : Nat) : LinkDir := { d with expect := (d.expect + 1) % 2 ^ w }

/-- The direction after its sender puts a flit on it. -/
def LinkDir.sent (d : LinkDir) (w : Nat) : LinkDir := { d with send := (d.send + 1) % 2 ^ w, unacked := d.unacked ++ [d.send] }

/-- Flits up to `h` are acknowledged; the replays of one of them are over. -/
def LinkDir.acked (d : LinkDir) (w h : Nat) : LinkDir :=
  { d with unacked := d.unacked.filter fun q => decide (0 < serialDist w q h),
           replays := if serialDist w d.replayOf h ≤ 0 then 0 else d.replays }

/-- The flits that a NAK from `q` on makes the sender replay; the flit that was NAKed is one of them. -/
def LinkDir.replayed (d : LinkDir) (w q : Nat) : Nat :=
  max 1 (d.unacked.filter fun x => decide (0 ≤ serialDist w x q)).length

/-- The direction after a NAK: one more replay of that flit, or retraining after 8, at the ninth NAK of one flit (R19, R305; DESIGN CHOICE, log entry 126,
for both kinds of link: neither rule says at which event the eighth replay has failed). -/
def LinkDir.nakked (d : LinkDir) (q : Nat) : LinkDir :=
  let k := if d.replayOf = q then d.replays else 0
  if 8 ≤ k then { d with replays := k, replayOf := q, retrain := true } else { d with replays := k + 1, replayOf := q }

/-- A direction after retraining. -/
def LinkDir.trained (d : LinkDir) : LinkDir := { d with retrain := false, replays := 0, replayOf := 0 }

/-! ### Weight-store links (R302 to R305) -/

def State.wslOf (s : State) (w : Nat) : Wsl := tget .reset s.mem.wsl w
def State.modWsl (s : State) (w : Nat) (f : Wsl → Wsl) : State :=
  { s with mem := { s.mem with wsl := fput s.mem.wsl w (f (s.wslOf w)) } }
def Wsl.dir (x : Wsl) (up : Bool) : LinkDir := if up then x.up else x.down
def Wsl.setDir (x : Wsl) (up : Bool) (d : LinkDir) : Wsl := if up then { x with up := d } else { x with down := d }

/-- The bytes 0 to 259 of a flit of a TYPE (R303). -/
def flitBytes (f : WFlit) (type : Nat) : List Byte :=
  natLe 4 (type * 2 ^ 28 + f.seq.toNat * 2 ^ 16 + f.tag.toNat * 2 ^ 8 + f.aux.toNat) ++ f.payload

/-- Whether a flit passes its code: the Reed-Solomon code corrects up to 12 byte errors, and then the CRC must hold (R303, R305). -/
def flitOk (type : Nat) (f : WFlit) : Bool := decide (f.errs ≤ 12) && f.crc == crc32c (flitBytes f type)

/-- Whether a direction of a link carries flits: not while the link retrains or its stack is out of service. -/
def State.wslLive (s : State) (w : Nat) : Bool :=
  (s.stack (20 + w)).status.getLsbD 4 && !(s.wslOf w).down.retrain && !(s.wslOf w).up.retrain

/-- The receiving end asks for a replay from the flit it expects. -/
def State.wslNakOut (s : State) (w : Nat) (up : Bool) : State := s.emit (.wslCtl w (!up) true ((s.wslOf w).dir up).expect)

/-- Receives a flit that has a place in the order: the flag tells that it is taken (R305). -/
def State.wslRx (s : State) (w : Nat) (up : Bool) (type : Nat) (f : WFlit) : State × Bool :=
  if !s.wslLive w then (s, false)
  else match ((s.wslOf w).dir up).check 12 f.seq.toNat (flitOk type f) with
    | .nak => (s.wslNakOut w up, false)
    | .again => (s.emit (.wslCtl w (!up) false ((((s.wslOf w).dir up).expect + 4095) % 4096)), false)
    | .take =>
      ((s.modWsl w fun x => x.setDir up (if up then (x.dir up).arrived 12 else (x.dir up).took 12)).emit
        (.wslCtl w (!up) false f.seq.toNat), true)

/-- The bytes of the payload that a TYPE defines (R304). -/
def definedBytes : Nat → Nat
  | 1 => 8
  | 2 => 256
  | 3 => 5
  | 4 => 256
  | 5 => 4
  | 6 => 68
  | 7 => 2
  | 9 => 4
  | 10 => 2
  | 11 => 2
  | _ => 0

/-- Whether the fields of a flit lie in their ranges and every byte that its TYPE does not define is 0 (R6, R304). -/
def flitLegal (f : WFlit) (type : Nat) : Bool :=
  let p := f.payload
  (p.drop (definedBytes type)).all (· == 0) && (f.aux == 0 || type == 2 || type == 4)
    && (if type = 1 ∨ type = 3 ∨ type = 5 ∨ type = 6 then decide (le p 0 4 < 2 ^ 17) else true)
    && (if type = 1 then decide (le p 4 2 < 8192 ∧ 1 ≤ le p 6 2 ∧ le p 6 2 ≤ 64) else true)
    && (if type = 3 then decide (le p 4 1 < 8) else true)
    && (if type = 10 ∨ type = 11 then decide (le p 0 2 < 4096) else true)

/-- Receives a flit without a place in the order (IDLE, ACK, NAK). -/
def State.wslCtlRx (s : State) (w : Nat) (up : Bool) (type : Nat) (f : WFlit) : State × Bool :=
  if !s.wslLive w then (s, false) else if flitOk type f then (s, flitLegal f type) else (s.wslNakOut w up, false)

/-- The stack sends a flit, with its SEQ and CRC (R303, R305). -/
def State.wslSend (s : State) (w type tag aux : Nat) (pay : List Byte) : State :=
  let f : WFlit := { seq := BitVec.ofNat 12 (s.wslOf w).up.send, tag := BitVec.ofNat 8 tag, aux := BitVec.ofNat 8 aux,
                     payload := fit 0 256 pay, errs := 0, crc := 0 }
  (s.modWsl w fun x => { x with up := x.up.sent 12 }).emit (.wsl w type { f with crc := crc32c (flitBytes f type) })

/-- What a flit that is taken brings about. A command with an illegal field is rejected with a status of class 0x01, whose low byte the
spec does not give (a free value), and changes nothing else (R6); another flit is dropped. -/
def State.wslTake (s : State) (w : Nat) (up : Bool) (type : Nat) (f : WFlit) (k : State → State) : State :=
  let r := s.wslRx w up type f
  if !r.2 then r.1
  else if flitLegal f type then k r.1
  else if up ∨ type = 4 then r.1
  else
    { r.1 with free := r.1.free + 1 }.wslSend w 7 f.tag.toNat 0 (natLe 2 (0x0100 + Config.freeNat r.1.free % 256))

def flitFrame (f : WFlit) : Nat := bits (le f.payload 0 4) 16 0
def flitW16 (f : WFlit) (o : Nat) : Nat := le f.payload o 2

def Wsl.addCmd (x : Wsl) (c : WslCmd) : Wsl := { x with cmds := x.cmds.filter (fun y => y.tag != c.tag) ++ [c] }
def Wsl.cmd (x : Wsl) (tag : Nat) : Option WslCmd := x.cmds.find? fun c => c.tag == tag

/-- The stack answers a command with DONE, status 0. -/
def State.wslAnswer (s : State) (w tag : Nat) : State := s.wslSend w 7 tag 0 []

/-- WSL_IDLE. -/
def wslIdle (w : Nat) (f : WFlit) (s : State) : State := (s.wslCtlRx w false 0 f).1

/-- WSL_READ: the stack sends LENGTH units of 256 B in DATA flits, then DONE. -/
def wslRead (w : Nat) (f : WFlit) (s : State) : State :=
  s.wslTake w false 1 f fun s =>
    let tag := f.tag.toNat
    let off := flitW16 f 4
    let len := flitW16 f 6
    let s := s.modWsl w fun x => x.addCmd { tag := tag, kind := 1, frame := flitFrame f, arg := off, count := 0 }
    let s := (List.range len).foldl (fun s i =>
      s.wslSend w 2 tag (i % 256) ((List.range 256).map fun b => s.mem.get (physKey (20 + w) (flitFrame f) ((off + i) * 256 + b)))) s
    s.wslAnswer w tag

/-- WSL_DATA: the Girdle counts the data of a read. -/
def wslData (w : Nat) (f : WFlit) (s : State) : State :=
  s.wslTake w true 2 f fun s => s.modWsl w fun x =>
    { x with cmds := x.cmds.map fun c => if c.tag = f.tag.toNat then { c with count := c.count + 1 } else c }

/-- WSL_PROG: the stack begins a chunk; its data follow. The Girdle sends none while the sag rule holds it (R327). -/
def wslProg (w : Nat) (f : WFlit) (s : State) : State :=
  if !s.mayWrite (20 + w) then s
  else
    s.wslTake w false 3 f fun s => s.modWsl w fun x =>
      x.addCmd { tag := f.tag.toNat, kind := 3, frame := flitFrame f, arg := le f.payload 4 1, count := 0 }

/-- WSL_PROGDATA: 256 B of a chunk; the 1,024th completes it. -/
def wslProgdata (w : Nat) (f : WFlit) (s : State) : State :=
  s.wslTake w false 4 f fun s =>
    match (s.wslOf w).cmd f.tag.toNat with
    | none => s
    | some c =>
      if c.kind ≠ 3 ∨ 1024 ≤ c.count then s
      else
        let k := physKey (20 + w) c.frame (c.arg * 2 ^ 18 + c.count * 256)
        let s := { s with mem := s.mem.puts k (fit 0 256 f.payload) }
        let s := s.modWsl w fun x =>
          { x with cmds := x.cmds.map fun y => if y = c then { y with count := y.count + 1 } else y }
        if c.count = 1023 then s.wslAnswer w c.tag else s

/-- WSL_ERASE: an erased frame reads as zero (R301). -/
def wslErase (w : Nat) (f : WFlit) (s : State) : State :=
  if !s.mayWrite (20 + w) then s
  else
    s.wslTake w false 5 f fun s =>
      let s := s.modWsl w fun x => x.addCmd { tag := f.tag.toNat, kind := 5, frame := flitFrame f, arg := 0, count := 0 }
      (s.frameErased (frameKey (20 + w) (flitFrame f))).wslAnswer w f.tag.toNat

/-- The tag of R306; none when its CRC does not hold. -/
def tagOf (b : List Byte) : Option Tag :=
  if le b 60 4 ≠ (crc32c (b.take 60)).toNat then none
  else some { rpage := bits (le b 0 4) 22 0, cls := bits (le b 0 4) 24 23, tstate := bits (le b 0 4) 27 25,
              pgen := le b 4 4 + 2 ^ 32 * le b 12 4, pcount := le b 8 2, parcel := le b 10 2 % 16 }

/-- WSL_TAGWR: a tag whose CRC does not hold is none (R322). -/
def wslTagwr (w : Nat) (f : WFlit) (s : State) : State :=
  if !s.mayWrite (20 + w) then s
  else
    s.wslTake w false 6 f fun s =>
      let s := s.modWsl w fun x => x.addCmd { tag := f.tag.toNat, kind := 6, frame := flitFrame f, arg := 0, count := 0 }
      let x := frameKey (20 + w) (flitFrame f)
      let t := (tagOf ((f.payload.drop 4).take 64)).getD { Tag.erased with pcount := (tget .erased s.mem.tags x).pcount }
      ({ s with mem := { s.mem with tags := fput s.mem.tags x t, pgen := max s.mem.pgen t.pgen } }).wslAnswer w f.tag.toNat

/-- WSL_DONE: the command of the TAG is no longer outstanding, and its status is kept. -/
def wslDone (w : Nat) (f : WFlit) (s : State) : State :=
  s.wslTake w true 7 f fun s => s.modWsl w fun x =>
    { x with cmds := x.cmds.filter (fun c => c.tag != f.tag.toNat), done := some (f.tag.toNat, BitVec.ofNat 16 (flitW16 f 0)) }

/-- WSL_STATUSRD: the stack answers with its temperature and its activity, a value the spec does not state. -/
def wslStatusrd (w : Nat) (f : WFlit) (s : State) : State :=
  s.wslTake w false 8 f fun s =>
    { s with free := s.free + 1 }.wslSend w 9 f.tag.toNat 0 (natLe 2 (s.stack (20 + w)).temp ++ natLe 2 (Config.freeNat s.free))

/-- WSL_STATUSRSP: the reading is acted on as R324 states. -/
def wslStatusrsp (w : Nat) (f : WFlit) (t : Nat) (s : State) : State :=
  (s.tickTo t).wslTake w true 9 f fun s =>
    (s.modWsl w fun x => { x with temp := flitW16 f 0, activity := flitW16 f 2 }).stackHeat (20 + w) (flitW16 f 0 % 1024)

/-- WSL_ACK: `up` tells the direction in which the ACK travels. -/
def wslAck (w : Nat) (up : Bool) (f : WFlit) (s : State) : State :=
  let r := s.wslCtlRx w up 10 f
  if r.2 then r.1.modWsl w fun x => x.setDir (!up) ((x.dir (!up)).acked 12 (flitW16 f 0 % 4096)) else r.1

/-- WSL_NAK: the sender replays from the SEQ named. -/
def wslNak (w : Nat) (up : Bool) (f : WFlit) (s : State) : State :=
  let r := s.wslCtlRx w up 11 f
  if !r.2 then r.1
  else
    let q := flitW16 f 0 % 4096
    let k := ((r.1.wslOf w).dir (!up)).replayed 12 q
    (r.1.modWsl w fun x => x.setDir (!up) ((x.dir (!up)).nakked q)).memCount (20 + w) .wslReplays k

/-- A stack leaves service (R305): shared pages whose home lies there go to their mirrors, which become the homes (R321); moves from it, and
programs into it, end with 0x0383 (DEDUCED for the programs, log entry 119). -/
def State.stackDown (s : State) (k : Nat) : State :=
  let s := s.modStack k fun x => { x with status := x.status &&& ~~~ 0x10#32 }
  (s.mem.pages.filter fun p => p.2.valid && p.2.cls == .wShared && p.2.mirrored && 20 + p.2.hstack == k).foldl (fun s p =>
    let e := p.2
    let e := if e.loc = 2 then { e with lstack := e.mstack, lframe := e.mframe } else e
    s.setPage p.1 { e with hstack := p.2.mstack, hframe := p.2.mframe, mirrored := false }) s
  |>.failMoves (fun m => m.dest == k || (let e := s.page m.rpage; stackNum e.loc e.lstack == k && !(e.cls == .wShared && e.mirrored)))
    0x0383#16

/-- WSL_RETRAIN_END (R305). -/
def wslRetrainEnd (w : Nat) (ok : Bool) (t : Nat) (s : State) : State :=
  let s := s.tickTo t
  if !(s.wslOf w).down.retrain ∧ !(s.wslOf w).up.retrain then s
  else
    let s := s.modWsl w fun x => { x with down := x.down.trained, up := x.up.trained }
    if ok then s else s.stackDown (20 + w)

/-! ### Seams (R18 to R20) -/

def State.seam (s : State) (k : Nat) : Seam := tget .reset s.seams k
def State.modSeam (s : State) (k : Nat) (f : Seam → Seam) : State := { s with seams := fput s.seams k (f (s.seam k)) }
def Seam.dir (x : Seam) (d : Bool) : LinkDir := if d then x.bwd else x.fwd
def Seam.setDir (x : Seam) (d : Bool) (l : LinkDir) : Seam := if d then { x with bwd := l } else { x with fwd := l }

def Seam.retrains (x : Seam) : Bool := x.fwd.retrain || x.bwd.retrain

/-- Bits [63:32] of the side field (R19). -/
def sideHigh (seq ackseq : Nat) (nak : Bool) (rsv : Nat) : Nat := seq * 2 ^ 22 + ackseq * 2 ^ 12 + b2n nak * 2 ^ 11 + rsv

/-- Whether the CRC of a seam flit holds: over the payload and then the four bytes of bits [63:32], the lowest first (R19; DESIGN CHOICE, log entry 126, for
the order of the bytes). -/
def seamOk (seq ackseq : Nat) (nak : Bool) (rsv : Nat) (crc : BitVec 32) (pay : List Byte) : Bool :=
  crc == crc32c (pay ++ natLe 4 (sideHigh seq ackseq nak rsv))

/-- Flits of a direction up to `h` are acknowledged on a seam. -/
def Seam.acked (x : Seam) (d : Bool) (h : Nat) : Seam :=
  let l := (x.dir d).acked 10 h
  { x.setDir d l with kept := x.kept.filter fun p => p.1 != d || l.unacked.contains p.2.1 }

/-- SEAM_FLIT (R19): a flit of direction `dir` arrives. Its ACKSEQ and NAK speak of the other direction; after a NAK the sender replays from
ACKSEQ + 1 (DESIGN CHOICE, log entry 126: the rule says 'from that flit', which a side field names by nothing else). A good flit that its sender may
not have sent, 256 being unacknowledged, is dropped without ACK or NAK (DESIGN CHOICE, log entry 126: the rule speaks of the sender only), and so is one
with a reserved bit set, which changes no state (R6). -/
def seamFlit (k : Nat) (dir : Bool) (seq ackseq : Nat) (nak : Bool) (rsv : Nat) (crc : BitVec 32) (pay : List Byte) (s : State) : State :=
  let x := s.seam k
  let ok := seamOk seq ackseq nak rsv crc pay
  if !x.service ∨ x.retrains ∨ (ok ∧ rsv ≠ 0) then s
  else
    let s := if !ok then s
      else s.modSeam k fun y =>
        let y := y.acked (!dir) ackseq
        if nak then y.setDir (!dir) ((y.dir (!dir)).nakked ((ackseq + 1) % 1024)) else y
    match (x.dir dir).check 10 seq ok with
    | .nak => s.emit (.seamCtl k (!dir) true (x.dir dir).expect)
    | .again => s.emit (.seamCtl k (!dir) false (((x.dir dir).expect + 1023) % 1024))
    | .take =>
      if 256 ≤ (x.dir dir).unacked.length then s
      else ((s.modSeam k fun y => { y.setDir dir ((y.dir dir).took 10) with kept := y.kept ++ [(dir, seq, pay)] }).emit
        (.seamOut k dir pay)).emit (.seamCtl k (!dir) false seq)

/-- The seams of the path that avoids a seam out of service (R20, R443): none when no path remains. -/
def State.detour (s : State) (k : Nat) : Option (List Nat) :=
  let up (p : List Nat) : Bool := p.all s.seamUp
  if k < 4 then ([0, 1].map fun g => [fgSeam k g, fgSeam (k + 1) g]).find? up
  else if k < 12 then
    let f := (k - 4) / 2
    let g := k % 2
    ([[ffSeam f, fgSeam (f + 1) g], [ffSeam (f + 3), fgSeam (f + 3) g]]).find? up
  else ((List.range 4).map fun f => [fgSeam f 0, fgSeam f 1]).find? up

/-- A seam leaves service until the next power-up (R19); the Cairn records it (R521). The flits that were unacknowledged are sent again on
the new path, in their order (R20). -/
def State.seamDown (s : State) (k why : Nat) : State :=
  if !(s.seam k).service then s
  else
    let kept := (s.seam k).kept
    let s := (s.modSeam k fun x => { x with service := false, kept := [], fwd := { x.fwd with unacked := [] },
                                            bwd := { x.bwd with unacked := [] } }).cairnEvent 0x0015 0 (natLe 1 k ++ natLe 1 why)
    match s.detour k with
    | some path => kept.foldl (fun s p => s.emit (.seamAgain path p.1 p.2.1 p.2.2)) s
    | none => s

/-- SEAM_RETRAIN_END (R19): both directions wait while the seam retrains. -/
def seamRetrainEnd (k : Nat) (ok : Bool) (t : Nat) (s : State) : State :=
  let s := s.tickTo t
  if !(s.seam k).retrains then s
  else
    let s := s.modSeam k fun x => { x with fwd := x.fwd.trained, bwd := x.bwd.trained }
    if ok then s else s.seamDown k 0

/-- SEAM_SILENCE_TIMEOUT (R19). -/
def seamSilenceTimeout (k t : Nat) (s : State) : State := (s.tickTo t).seamDown k 1

/-! ### The meanings -/

/-- Whether a command names a frame that the stack does not have (R301). -/
def badFrame (s : State) (w type : Nat) (f : WFlit) : Bool := flitLegal f type && (s.wslRx w false type f).2 && decide (98304 ≤ flitFrame f)

/-- Whether a read names bytes beyond its frame (R304). -/
def badRange (s : State) (w type : Nat) (f : WFlit) : Bool := flitLegal f type && (s.wslRx w false type f).2 && decide (8192 < flitW16 f 4 + flitW16 f 6)

def execWslIdle (w : Fin 16) (f : WFlit) (s : State) : Host.Outcome State Fault Refusal := .next (wslIdle w f s)
def execWslRead (w : Fin 16) (f : WFlit) (s : State) : Host.Outcome State Fault Refusal :=
  if badFrame s w 1 f || badRange s w 1 f then .fault .noSuchFrame else .next (wslRead w f s)
def execWslData (w : Fin 16) (f : WFlit) (s : State) : Host.Outcome State Fault Refusal := .next (wslData w f s)
def execWslProg (w : Fin 16) (f : WFlit) (s : State) : Host.Outcome State Fault Refusal :=
  if badFrame s w 3 f then .fault .noSuchFrame else .next (wslProg w f s)
def execWslProgdata (w : Fin 16) (f : WFlit) (s : State) : Host.Outcome State Fault Refusal := .next (wslProgdata w f s)
def execWslErase (w : Fin 16) (f : WFlit) (s : State) : Host.Outcome State Fault Refusal :=
  if badFrame s w 5 f then .fault .noSuchFrame else .next (wslErase w f s)
def execWslTagwr (w : Fin 16) (f : WFlit) (s : State) : Host.Outcome State Fault Refusal :=
  if badFrame s w 6 f then .fault .noSuchFrame else .next (wslTagwr w f s)
def execWslDone (w : Fin 16) (f : WFlit) (s : State) : Host.Outcome State Fault Refusal := .next (wslDone w f s)
def execWslStatusrd (w : Fin 16) (f : WFlit) (s : State) : Host.Outcome State Fault Refusal := .next (wslStatusrd w f s)
def execWslStatusrsp (w : Fin 16) (f : WFlit) (t : Nat) (s : State) : Host.Outcome State Fault Refusal :=
  .next (wslStatusrsp w f t s)
def execWslAck (w : Fin 16) (up : Bool) (f : WFlit) (s : State) : Host.Outcome State Fault Refusal := .next (wslAck w up f s)
def execWslNak (w : Fin 16) (up : Bool) (f : WFlit) (s : State) : Host.Outcome State Fault Refusal := .next (wslNak w up f s)
def execWslRetrainEnd (w : Fin 16) (ok : Bool) (t : Nat) (s : State) : Host.Outcome State Fault Refusal :=
  .next (wslRetrainEnd w ok t s)
def execSeamFlit (k : Fin 13) (dir : Bool) (seq ackseq : BitVec 10) (nak : Bool) (rsv : BitVec 11) (crc : BitVec 32)
    (pay : List Byte) (s : State) : Host.Outcome State Fault Refusal :=
  .next (seamFlit k dir seq.toNat ackseq.toNat nak rsv.toNat crc pay s)
def execSeamRetrainEnd (k : Fin 13) (ok : Bool) (t : Nat) (s : State) : Host.Outcome State Fault Refusal :=
  .next (seamRetrainEnd k ok t s)
def execSeamSilenceTimeout (k : Fin 13) (t : Nat) (s : State) : Host.Outcome State Fault Refusal :=
  .next (seamSilenceTimeout k t s)

end Sys2Proof.Machine
end

