-- ==== Sys2Proof/Machine/Graphs.lean ====
section
/-!
DEFINITION. Recipes and graph instances: the recipe header and its checks (R345 to R347), the instantiation of a graph (R347,
R61, R271, R275), quotas at admission (R345), and decode steps.
-/

namespace Sys2Proof.Machine

/-! ### Recipe headers (R346) -/

/-- The 32 bytes of a graph-table entry (R347), and whether its reserved fields are 0. -/
def graphEntOf (b : List Byte) : GraphEnt × Bool :=
  ({ graph := le b 0 2, gkind := le b 2 1, ntask := le b 4 4, template := le b 8 8, argbase := le b 16 8, narg := le b 24 2 },
   zeros b 3 1 && zeros b 26 6)

def edgesOf (b : List Byte) (src : Nat) : List Lns := (List.range 15).map fun k => BitVec.ofNat 16 (le b (128 + 30 * (src - 1) + 2 * k) 2)

def ascending : List Lns → Bool
  | a :: b :: r => decide (lnsKey a < lnsKey b) && ascending (b :: r)
  | _ => true

/-- The recipe that a header gives, without its graph table. -/
def recipeHead (b : List Byte) : Recipe :=
  { num := le b 8 4, v := bits (le b 12 4) 18 0, nlayer := le b 16 2, nkvh := le b 18 1, d := 64 * 2 ^ (le b 19 1 % 4),
    pk := bits (le b 19 1) 5 2, pv := le b 20 1 % 16, kvPlain := le b 24 4, kvPacked := le b 28 4, fixedH := le b 32 8,
    cbbase := le b 40 8, ncbset := le b 48 2, limSat := le b 52 4, limUfl := le b 56 4, limPass := le b 60 4,
    limReplay := le b 64 4, limMiss := le b 68 4, graphs := [], edges := (List.range 7).map (fun k => edgesOf b (k + 1)), head := b }

/-- Whether the fields of a header lie in their ranges and its reserved fields are 0. -/
def headOk (b : List Byte) (num : Nat) : Bool :=
  let r := recipeHead b
  let ng := le b 72 4
  le b 0 4 == 0x58524350 && le b 4 1 == 1 && zeros b 5 3 && r.num == num && bits (le b 12 4) 31 19 == 0
    && decide (2 ≤ r.v ∧ r.v ≤ 262144 ∧ 1 ≤ r.nlayer ∧ r.nlayer ≤ 1024 ∧ 1 ≤ r.nkvh ∧ r.nkvh ≤ 64)
    && le b 19 1 % 4 != 3 && decide (1 ≤ r.pk ∧ r.pk ≤ 8 ∧ 1 ≤ r.pv ∧ r.pv ≤ 8) && bits (le b 19 1) 7 6 == 0
    && bits (le b 20 1) 7 4 == 0 && zeros b 21 3 && r.cbbase % 8 == 0 && decide (r.ncbset ≤ 4096 ∧ 1 ≤ ng ∧ ng ≤ 256)
    && zeros b 50 2 && zeros b 76 4 && le b 80 8 % 64 == 0 && zeros b 88 40 && zeros b 338 686
    && ((List.range 7).all fun k => k == 4 || ascending (r.edges.getD k []))

/-- Whether `len` bytes lie in Tier N pages of a Parcel (R346, R356). -/
def State.inTierN (s : State) (p a len : Nat) : Bool :=
  (pagesOf a len).all fun g => g / 2 ^ 19 != 0xE && g / 2 ^ 19 != 0xF && s.mayRead p g && (s.page g).loc == 0

/-- Whether `len` bytes lie in pages that a Parcel may read (R296). -/
def State.readable (s : State) (p a len : Nat) : Bool := (pagesOf a len).all fun g => (s.pageCheck false p g).isNone

def ceilPages (n : Nat) : Nat := ceilDiv n (2 ^ 21)

/-- The declared footprint of a recipe, in pages (R346). -/
def Recipe.footprint (r : Recipe) : Nat := ceilPages (r.fixedH + r.kvPacked * 17408)

/-- The footprint of one request, in pages (R345, R346). -/
def Recipe.need (r : Recipe) (packed : Bool) (tokens : Nat) : Nat :=
  if packed then ceilPages (r.fixedH + r.kvPacked * ceilDiv tokens 64) else ceilPages (r.fixedH + r.kvPlain * tokens)

/-- The descriptors of a template. -/
def State.template (s : State) (g : GraphEnt) : List Desc :=
  (List.range g.ntask).map fun k => descOf (s.rbytes (g.template + 128 * k) 128)

/-- Whether an entry of the graph table is legal (R347). -/
def State.graphOk (s : State) (p : Nat) (g : GraphEnt × Bool) : Bool :=
  let e := g.1
  let ts := s.template e
  g.2 && decide (e.gkind ≤ 2 ∧ 1 ≤ e.ntask ∧ e.ntask ≤ 16384) && e.template % 128 == 0 && s.readable p e.template (128 * e.ntask)
    && (if e.argbase = 0 then e.narg == 0
        else decide (e.narg ≠ 0) && e.argbase % 16 == 0 && (pagesOf e.argbase (16 * e.narg)).all fun q =>
          (s.page q).valid && (s.page q).owner == p && (s.page q).cls == .d)
    && ts.all (fun d => d.kind != 5 && !(e.gkind == 2 && (d.kind == 0 || d.kind == 2)))
    && (List.range 4).all (fun f => decide ((ts.filter fun d => d.facet == f).length ≤ 4096))

/-- The recipe that a header and its graph table give, or the status that refuses the bind (R346, R347). -/
def State.recipeAt (s : State) (p num a : Nat) : Except Status Recipe :=
  if a % 64 ≠ 0 ∨ !s.readable p a 1024 then .error 0x0199#16
  else
    let b := s.rbytes a 1024
    let r := recipeHead b
    let ng := le b 72 4
    let gs := (List.range ng).map fun k => graphEntOf (s.rbytes (le b 80 8 + 32 * k) 32)
    if !headOk b num ∨ !s.inTierN p r.cbbase (r.ncbset * 4 * 4104) then .error 0x0199#16
    else if !s.readable p (le b 80 8) (32 * ng) ∨ gs.any (fun g => !s.graphOk p g)
        ∨ !(gs.map (·.1.graph)).Nodup ∨ 1 < gs.countP (·.1.gkind == 0) ∨ 1 < gs.countP (·.1.gkind == 1) then .error 0x0199#16
    else if (s.parcel p).quotaH < r.footprint then .error 0x0294#16
    else .ok { r with graphs := gs.map (·.1) }

/-! ### Serials and nonces (R61) -/

def State.drawNonce (s : State) : State × BitVec 64 := ({ s with draws := s.draws + 1 }, Config.random64 s.draws)

/-- The next SERIAL of a Parcel; past 0xFF_FFFF a new NONCE begins. -/
def State.nextSerial (s : State) (p : Nat) : State × Nat :=
  let k := (s.parcel p).serial
  if 0xFFFFFF < k then
    let r := s.drawNonce
    (r.1.modParcel p fun q => { q with nonce := r.2, serial := 2 }, 1)
  else (s.modParcel p fun q => { q with serial := k + 1 }, k)

/-- A request that comes to decode in another Parcel than the one that admitted it is an instance of that Parcel: it takes its next SERIAL
(R61; DEDUCED, log entry 118). -/
def State.takeSerial (s : State) (r : Nat) : State :=
  let x := s.nextSerial (s.req r).parcel
  x.1.modReq r fun q => { q with serial := x.2, nonce := (x.1.parcel q.parcel).nonce, step := 0 }

/-! ### Instantiation (R347) -/

/-- The new TASKID of each template task, as (Facet, old, new). -/
def State.newTids (s : State) (ts : List Desc) : List (Nat × Nat × Nat) :=
  (List.range 4).flatMap fun f =>
    let l := ts.filter fun d => d.facet == f
    ((l.map (·.taskid)).zip (s.freeTids f)).map fun x => (f, x.1, x.2)

def newTid (m : List (Nat × Nat × Nat)) (f t : Nat) : Nat := ((m.find? fun x => x.1 == f && x.2.1 == t).map (·.2.2)).getD t

/-- A successor entry in the instance: its TASKID replaced for TYPE 1 and 2. -/
def newSucc (m : List (Nat × Nat × Nat)) (f e : Nat) : Nat :=
  let ty := bits e 31 30
  if ty = 1 ∨ ty = 2 then
    let tf := if ty = 1 then f else bits e 28 27
    e - bits e 26 15 * 2 ^ 15 + newTid m tf (bits e 26 15) * 2 ^ 15
  else e

/-- The copy of a template's descriptor (R347). Its generator table lies in the system region. -/
def instDesc (m : List (Nat × Nat × Nat)) (p serial owner gkind aon tgen : Nat) (d : Desc) : Desc :=
  let ok := if d.kind = 1 ∨ d.kind = 3 ∨ gkind = 2 then 2 else if gkind = 0 then 0 else 1
  { d with parcel := p, serial := serial, owner := if ok = 2 then 0 else owner, ownkind := ok, tgen := tgen,
           deadline := if d.deadline = 0 then 0 else (d.deadline + aon) % 2 ^ 48, taskid := newTid m d.facet d.taskid,
           succs := d.succs.map (newSucc m d.facet), gtab := 0xF0000000000 }

/-- Generators in the instance: bits [39:16] of SEED_INDEX hold the step number (R271). -/
def instGen (step : Nat) (g : GenEntry) : GenEntry := { g with seed := step % 2 ^ 24 * 2 ^ 16 + g.seed % 2 ^ 16 }

/-- Whether every successor of a task within its module has been submitted (R275). -/
def readyToSubmit (done : List (Nat × Nat)) (all : List (Nat × Nat)) (d : Desc) : Bool :=
  (d.succs.take d.nsucc).all fun e =>
    let ty := bits e 31 30
    let k := (if ty = 1 then d.facet else bits e 28 27, bits e 26 15)
    (ty != 1 && ty != 2) || !all.contains k || done.contains k

/-- The order of submission: successors before the tasks that name them. -/
def submitOrder (all done : List (Nat × Nat)) (ds : List (Desc × Desc)) : Nat → List (Desc × Desc)
  | 0 => ds
  | n + 1 =>
    match ds.find? fun d => readyToSubmit done all d.1 with
    | some d => d :: submitOrder all (done ++ [(d.1.facet, d.1.taskid)]) (ds.erase d) n
    | none => ds

/-- Submits the tasks of an instance in turn, each with its template's descriptor; a rejection ends the instance (R273). -/
def State.submitAll (s : State) (step : Nat) : List (Desc × Desc) → State
  | [] => s
  | (d, o) :: r =>
    let tb := s.tablesOf o
    let x := s.submitTables d.facet d (tb.1, tb.2.map (instGen step)) .graph false
    match x.2 with
    | some _ => x.1
    | none => State.submitAll x.1 step r

/-- The SERIAL of the next instance: that of the instance which a decode step extends, else the Parcel's next (R61, R265). -/
def State.serialFor (s : State) (p : Nat) (step : Option (Nat × BitVec 64)) : Nat :=
  match step with
  | some x => x.1
  | none => let k := (s.parcel p).serial; if 0xFFFFFF < k then 1 else k

/-- The argument slot that an instance of a SERIAL takes. -/
def GraphEnt.argSlot (g : GraphEnt) (serial : Nat) : Option Nat :=
  if g.argbase = 0 ∨ g.narg = 0 then none else some (serial % g.narg)

/-- Whether an earlier live instance of the graph holds that slot. -/
def State.argBusy (s : State) (p recipe serial : Nat) (g : GraphEnt) : Bool :=
  match g.argSlot serial with
  | none => false
  | some k => (s.parcel p).insts.any fun i => i.recipe == recipe && i.graph == g.graph && i.slot == some k

/-- Whether every tracker has the free entries that an instance needs. -/
def State.entriesFree (s : State) (ts : List Desc) : Bool :=
  (List.range 4).all fun f =>
    decide ((ts.filter fun d => d.facet == f).length ≤ 4096 - (s.trk.table.filter fun e =>
      e.1 / 4096 == f && e.2.st != .free).length)

/-- Instantiates a graph for an owner (R347): none while it must wait. `ext` holds the SERIAL and NONCE of the instance that a decode step
extends (R61, R265, R271). The result holds the SERIAL. -/
def State.instantiate (s : State) (p recipe : Nat) (g : GraphEnt) (owner step : Nat) (ext : Option (Nat × BitVec 64))
    (arg : List Byte) : Option (State × Nat) :=
  let ts := s.template g
  let serial := s.serialFor p ext
  if !s.entriesFree ts ∨ s.argBusy p recipe serial g then none
  else
    let slot := g.argSlot serial
    let s := if ext.isSome then s else (s.nextSerial p).1
    let nonce := match ext with
      | some x => x.2
      | none => (s.parcel p).nonce
    let m := s.newTids ts
    let s := { s with free := s.free + 1 }
    let tg := (tget 0 s.mem.mgen p).toNat
    let ds := ts.map fun d => (instDesc m p serial owner g.gkind s.aon tg d, d)
    let ids := ds.map fun d => (d.1.facet, d.1.taskid)
    let inst : Instance := { serial := serial, nonce := nonce, recipe := recipe, graph := g.graph, slot := slot,
                             step := step, owner := owner, ownkind := g.gkind, tasks := ids, failed := none }
    let s := s.modParcel p fun q => { q with insts := q.insts ++ [inst] }
    let s := match slot with
      | some k => s.rput (g.argbase + 16 * k) (fit 0 16 arg)
      | none => s
    some (s.submitAll step (submitOrder ids [] ds ds.length), serial)

def Recipe.graphOf (r : Recipe) (gkind : Nat) : Option GraphEnt := r.graphs.find? fun g => g.gkind == gkind

/-! ### Admission (R340, R345) -/

/-- The Tier H pages that a request holds: its footprint from PREFILL on, its prompt before. -/
def State.reserved (s : State) (q : Request) : Nat :=
  match q.st with
  | .free => 0
  | .receiving => ceilPages (4 * q.blk.nctx)
  | .queued => ceilPages (4 * q.blk.nctx)
  | _ => match s.recipe q.parcel q.blk.recipe with
    | some r => r.need q.packed (q.blk.nctx + q.blk.ngen)
    | none => 0

/-- The free Tier H quota of a Parcel, request `but` apart. -/
def State.freeH (s : State) (p but : Nat) : Nat :=
  (s.parcel p).quotaH - (s.mem.pages.map fun x => x.2.counts p 1 0).sum
    - (s.reqs.map fun x => if x.1 = but ∨ x.2.parcel ≠ p then 0 else s.reserved x.2).sum

/-- The request at the head of its Parcel's queue is admitted: its prefill graph is instantiated (R340, R345, R347). It stays
QUEUED while quota, Stations, tracker entries or the argument slot are wanting. -/
def State.admitNow (s : State) (r : Nat) : State :=
  let q := s.req r
  let p := q.parcel
  match s.recipe p q.blk.recipe with
  | none => s
  | some rc =>
    match rc.graphOf 0 with
    | none => s
    | some g =>
      let n := q.blk.nctx + q.blk.ngen
      let room := s.freeH p r
      let packed := decide (room < rc.need false n)
      let stns := (List.range 64).any fun k => (s.parcel p).stations.getLsbD k && !s.isWithdrawn k
      if q.st ≠ .queued ∨ (s.parcel p).queue.head? ≠ some r ∨ !stns ∨ room < rc.need packed n ∨ (s.parcel p).st ≠ .active then s
      else
        let s1 := s.modReq r fun q => { q with st := .prefill, packed := packed, step := 0 }
        let s1 := s1.modParcel p fun x => { x with queue := x.queue.filter fun y => y != r }
        let s1 := s1.modReq r fun q => { q with serial := s.serialFor p none }
        match s1.instantiate p q.blk.recipe g r 0 none (natLe 4 r ++ natLe 4 q.blk.nctx ++ natLe 4 q.blk.ngen) with
        | some x => x.1.modReq r fun q => { q with nonce := (x.1.parcel p).nonce }
        | none => s

/-! ### Decode steps (R340, R347) -/

/-- The batch set of a Parcel and recipe: a number of its own among the 1,024 (R265). -/
def State.setNumber (s : State) (p recipe : Nat) : Nat :=
  64 * p + (((s.parcel p).recipes.findIdx? fun r => r.1 == recipe).getD 0) % 64

/-- Whether a Gate still has a job of a request. -/
def State.inGate (s : State) (r : Nat) : Bool :=
  s.gates.any fun g => g.2.queue.any (fun j => !j.kat && j.req == r)
    || (match g.2.run with
      | some (j, _) => !j.kat && j.req == r
      | none => false)

/-- The requests of a batch set's next step, at most 128 (R265): those of its last step that are still in DECODE, then the others of the
Parcel and recipe by number (DESIGN CHOICE, log entry 134: the spec does not say which requests wait for a later step). -/
def State.nextSet (s : State) (p recipe : Nat) : List Nat :=
  let ms := (tkeys s.reqs).filter fun x => (s.req x).st == .decode && (s.req x).parcel == p
    && (s.req x).blk.recipe == recipe && (s.req x).dest.isNone
  let old := (s.setOf (s.setNumber p recipe)).filter ms.contains
  (old ++ ms.filter fun x => !old.contains x).take 128

/-- The next decode step of the batch set of a request, at the step boundary: no step of the set is under way and no Gate has a job of one
of its requests. The step belongs to the instance of the set's first request and carries its SERIAL, NONCE and step number (R61, R265,
R271). -/
def State.decodeStep (s : State) (r : Nat) : State :=
  let q := s.req r
  let p := q.parcel
  match s.recipe p q.blk.recipe with
  | none => s
  | some rc =>
    match rc.graphOf 1 with
    | none => s
    | some g =>
      let b := s.setNumber p q.blk.recipe
      let ms := s.nextSet p q.blk.recipe
      let busy := (s.parcel p).insts.any (fun i => i.ownkind == 1 && i.owner == b) || ms.any s.inGate
      if q.st ≠ .decode ∨ !ms.contains r ∨ busy ∨ (s.parcel p).st ≠ .active then s
      else
        let q0 := s.req (ms.headD r)
        let s1 := { s with trk := { s.trk with batch := fput s.trk.batch b ms } }
        let s1 := ms.foldl (fun s x => s.modReq x fun q => { q with step := q.step + 1 }) s1
        match s1.instantiate p q.blk.recipe g b (q0.step + 1) (some (q0.serial, q0.nonce)) (natLe 4 b ++ natLe 4 (q0.step + 1)) with
        | some x => x.1
        | none => s

end Sys2Proof.Machine
end

