-- ==== Sys2Proof/Machine/Serving.lean ====
section
/-!
DEFINITION. Serving frames and the life of a request (R333 to R345, R355), and adaptation steps (R363).
-/

namespace Sys2Proof.Machine

/-! ### Addresses (R5, R333, R334, R420) -/

/-- An IPv6 address in network order. -/
def addrOf (b : List Byte) : BitVec 128 := (b.take 16).foldl (fun a x => a <<< 8 ||| x.setWidth 128) 0

def addrBytes (a : BitVec 128) : List Byte := (List.range 16).map fun k => (a >>> (8 * (15 - k))).setWidth 8

/-- Whether an address matches a prefix. -/
def prefixHas (p : BitVec 128 × Nat) (a : BitVec 128) : Bool := p.1 >>> (128 - p.2) == a >>> (128 - p.2)

/-- The link-local address of the management port, by modified EUI-64 (R420). -/
def linkLocal (mac : BitVec 48) : BitVec 128 :=
  let hi := (mac >>> 24).setWidth 24
  let lo : BitVec 24 := mac.setWidth 24
  (0xFE80#16 ++ 0#48) ++ ((hi ^^^ 0x020000#24) ++ 0xFFFE#16 ++ lo)

/-- The configured address of a port: a serving port, or the management port. -/
def State.portAddr (s : State) (port : Option (Fin 2)) : Option (BitVec 128) :=
  match port with
  | some k => (s.cfg 0x0004 0xFF k).map addrOf
  | none => match s.cfg 0x0003 0xFF 0 with
    | some b => some (addrOf b)
    | none => some (linkLocal Config.mgmtMac)

/-- Whether a port carries packets: the management port in service, a serving port while its link is up. -/
def State.portLive (s : State) (port : Option (Fin 2)) : Bool := !s.pwr.silent && (match port with
  | some k => s.linkUp k
  | none => true)

/-- ICMPV6_ECHO (R333, R420). -/
def icmpv6Echo (port : Option (Fin 2)) (src dst : BitVec 128) (data : List Byte) (s : State) : State :=
  if !s.portLive port ∨ s.portAddr port ≠ some dst then s else s.emit (.echo port src data)

/-- NEIGHBOUR_DISCOVERY (R333, R420). -/
def neighbourDiscovery (port : Option (Fin 2)) (src target : BitVec 128) (s : State) : State :=
  if !s.portLive port ∨ s.portAddr port ≠ some target then s else s.emit (.advert port src target)

/-! ### The checks of a frame (R333, R334, R338) -/

/-- The token words of a payload (R336). -/
def tokenWords (b : List Byte) : List Nat := (List.range (b.length / 4)).map fun k => le b (4 * k) 4

/-- The request block of a SUBMIT (R337). -/
def reqBlock (b : List Byte) : ReqBlock :=
  { recipe := le b 0 4, nctx := le b 4 4, ngen := le b 8 4, topk := le b 12 2, topp := BitVec.ofNat 16 (le b 14 2),
    temp := BitVec.ofNat 16 (le b 16 2), maskid := le b 18 2, gramid := le b 20 2,
    stops := (List.range 4).map fun k => le b (24 + 4 * k) 4, ttl := le b 40 6 }

/-- The tokens that a client frame of a TYPE carries: a block's stop tokens and its context, or the context. -/
def frameTokens (kind : Nat) (b : List Byte) : List Nat :=
  if kind = 1 then (reqBlock b).stops.filter (· != 0xFFFFFFFF) ++ tokenWords (b.drop 64) else if kind = 2 then tokenWords b else []

/-- Check 2 of R338. -/
def frameIllegal (kind : Nat) (f : SFrame) : Bool :=
  let n := f.payload.length
  f.typ.isSome || f.udpLen != 24 + f.len.toNat || n != f.len.toNat || bits f.reqWord.toNat 30 16 != 0 || bits f.modWord.toNat 15 12 != 0
    || f.status != 0
    || (match kind with
        | 1 => decide (n < 64) || n % 4 != 0 || !zeros f.payload 22 2 || !zeros f.payload 46 2 || !zeros f.payload 48 16
        | 2 => n % 4 != 0
        | 4 => n != 4
        | _ => n != 0)
    || (frameTokens kind f.payload).any fun t => decide (2 ^ 18 ≤ t)

/-- The Parcel that holds a UDP port (R334). -/
def State.parcelAt (s : State) (port : Nat) : Option Nat :=
  (List.range 16).find? fun p => (s.parcel p).st != .absent && (s.parcel p).udp == port && port != 0

/-- The Parcel of a frame, or none when the port drops it (R333, R334, R338 check 1). -/
def State.frameParcel (s : State) (f : SFrame) : Option Nat :=
  if f.bad ∨ f.magic ≠ 0x5850#16 ∨ f.ver ≠ 1#8 then none
  else (s.parcelAt f.dstPort.toNat).bind fun p =>
    if (s.parcel p).prefixes.any fun x => prefixHas x f.srcAddr then some p else none

/-- The entry that a frame other than SUBMIT names (check 9). -/
def State.frameEntry (s : State) (p : Nat) (f : SFrame) : Option Nat :=
  let r := bits f.reqWord.toNat 15 0
  let q := s.req r
  if bits f.reqWord.toNat 31 31 = 1 ∧ q.st ≠ .free ∧ q.home = p ∧ q.tag = f.clientTag ∧ q.addr = f.srcAddr ∧ q.remote = none
  then some r else none

/-- Check 3. -/
def State.notServing (s : State) (p kind : Nat) : Bool :=
  s.plan.force.gen == 0 || (s.parcel p).st == .resetting || s.sec.open'
    || (kind == 1 && (s.plan.mode == 3 || s.pwr.supply == .abort || s.pwr.supply == .shut))

/-- Checks 3 to 7 of a SUBMIT and its tokens (check 8). A recipe without a prefill graph serves no SUBMIT. -/
def State.submitCheck (s : State) (p : Nat) (f : SFrame) : Option Status :=
  let b := reqBlock f.payload
  match (s.recipe p b.recipe).bind fun r => (r.graphOf 0).map fun _ => r with
  | none => some 0x0191#16
  | some r =>
    if b.nctx < 1 ∨ 1048576 < b.nctx ∨ b.ngen < 1 ∨ 65536 < b.ngen then some 0x0192#16
    else if 1024 < b.topk ∨ lnsSign b.topp ∨ lnsIsZero b.topp ∨ 0 < lnsL b.topp ∨ lnsSign b.temp ∨ lnsIsZero b.temp then
      some 0x0193#16
    else if (b.maskid ≠ 0xFFFF ∧ !(tkeys (s.parcel p).masks).contains b.maskid)
        ∨ (b.gramid ≠ 0xFFFF ∧ !(tkeys (s.parcel p).grammars).contains b.gramid) then some 0x0194#16
    else if (frameTokens 1 f.payload).any fun t => decide (r.v ≤ t) then some 0x0195#16
    else none

/-- Check 8 of a frame that names an entry. -/
def State.tokenCheck (s : State) (p kind : Nat) (f : SFrame) : Bool :=
  match s.frameEntry p f with
  | some r => match s.recipe p (s.req r).blk.recipe with
    | some rc => (frameTokens kind f.payload).any fun t => decide (rc.v ≤ t)
    | none => false
  | none => false

/-- A REJECT (R336, R338). -/
def State.reject (s : State) (f : SFrame) (st : Status) : State :=
  match s.servPort f.port with
  | some p => s.emit (.serving p f.srcAddr f.srcPort 0x84 0 f.clientTag 0 false st s.own 0 [])
  | none => s

/-- The length of the Ethernet frame that carries a serving frame: headers of 14, 40, 8 and 24 B, and 4 B of check sequence. -/
def sframeWire (f : SFrame) : Nat := 90 + f.payload.length

/-- Receives a client frame: not accepted when it is longer than the MAC allows (R332), dropped and counted, rejected, or taken with its
Parcel (R338). A full receive queue drops it too (R408). -/
def State.clientFrame (s : State) (kind : Nat) (f : SFrame) (k : State → Nat → State) : State :=
  if !s.portLive (some f.port) ∨ 9216 < sframeWire f then s
  else match s.frameParcel f with
  | none => s.srvCount f.port.val .rxDropped
  | some p =>
    if f.full then s.srvCount f.port.val .rxDropped
    else if frameIllegal kind f then s.reject f 0x0190#16
    else if s.notServing p kind then s.reject f 0x0292#16
    else if kind = 1 then
      match s.submitCheck p f with
      | some st => s.reject f st
      | none => k s p
    else if s.tokenCheck p kind f then s.reject f 0x0195#16
    else k s p

/-- A client frame that names an entry (check 9). -/
def State.entryFrame (s : State) (kind : Nat) (f : SFrame) (k : State → Nat → State) : State :=
  s.clientFrame kind f fun s p => match s.frameEntry p f with
    | none => s.reject f 0x0196#16
    | some r => k s r

/-! ### Frames to the client -/

/-- The END frame of a request in ENDING, sent again unchanged (R342, R343). -/
def State.endAgain (s : State) (r : Nat) : State :=
  let q := s.req r
  s.toClient r 0x83 q.endSt q.endOff q.endPay

/-- The most tokens that one frame carries: LEN ≤ MTU − 72 B (R335, R442). -/
def State.frameRoom (s : State) (port : Nat) : Nat :=
  ((match s.cfg 0x0005 0xFF port with
    | some b => le b 0 2
    | none => 9000) - 72) / 4

def tokenBytes (ts : List Nat) : List Byte := ts.flatMap fun t => natLe 4 t

/-- TOKENS frames with the generated tokens [off, off + n) (R336, R343). -/
def State.sendToks (s : State) (r off n : Nat) : Nat → State
  | 0 => s
  | fuel + 1 =>
    let ts := (((s.req r).gen.drop off).take n).take (max 1 (s.frameRoom (s.req r).port))
    if ts.isEmpty then s
    else State.sendToks (s.toClient r 0x82 0 off (tokenBytes ts)) r (off + ts.length) (n - ts.length) fuel

/-- A request's entry becomes free. -/
def State.freeReq (s : State) (r : Nat) : State :=
  let s := { s with reqs := fput s.reqs r .free }
  { s with trk := { s.trk with batch := s.trk.batch.map fun b => (b.1, b.2.filter fun x => x != r) } }

/-! ### The frames -/

/-- A prompt position takes its first value (R341). -/
def takeToks (q : Request) (off : Nat) (ts : List Nat) : Tab Nat :=
  ((List.range ts.length).zip ts).foldl (fun t x =>
    let pos := off + x.1
    if q.blk.nctx ≤ pos ∨ (tkeys t).contains pos then t else fput t pos x.2) q.toks

/-- Context tokens reach a request in RECEIVING; the complete prompt makes it QUEUED (R340, R341). -/
def State.addToks (s : State) (r off : Nat) (ts : List Nat) : State :=
  let q := s.req r
  if q.st ≠ .receiving then s
  else
    let t := takeToks q off ts
    let s := s.modReq r fun q => { q with toks := t, lastPos := if q.toks.length < t.length then s.aon else q.lastPos }
    if t.length < q.blk.nctx then s
    else
      (s.modReq r fun q => { q with st := .queued }).modParcel q.parcel fun p => { p with queue := p.queue ++ [r] }

/-- SUBMIT (R338, R340). -/
def submit (f : SFrame) (t : Nat) (s : State) : State :=
  (s.tickTo t).clientFrame 1 f fun s p =>
    let same := s.reqs.find? fun x => x.2.st != .free && x.2.home == p && x.2.addr == f.srcAddr && x.2.udp == f.srcPort
      && x.2.tag == f.clientTag && x.2.remote.isNone
    match same with
    | some (r, q) => if q.st = .ending then s.endAgain r else s.toClient r 0x81 0 0 []
    | none =>
      match (List.range 65536).find? fun r => (s.req r).st == .free with
      | none => s.reject f 0x0290#16
      | some r =>
        let waiting := s.reqs.countP fun x => x.2.parcel == p && (x.2.st == .receiving || x.2.st == .queued)
        if 4096 ≤ waiting then s.reject f 0x0291#16
        else
          let q : Request := { Request.free with
            st := .receiving, parcel := p, home := p, port := f.port, addr := f.srcAddr, udp := f.srcPort, tag := f.clientTag,
            blk := reqBlock f.payload, accept := s.aon, lastPos := s.aon,
            gstate := if (reqBlock f.payload).gramid = 0xFFFF then 0xFFFF
              else le (tget [] (s.parcel p).grammars (reqBlock f.payload).gramid) 8 2 }
          let s := { s with reqs := fput s.reqs r q }
          (s.toClient r 0x81 0 0 []).addToks r 0 (tokenWords (f.payload.drop 64))

/-- PROMPT (R341). -/
def prompt (f : SFrame) (t : Nat) (s : State) : State :=
  (s.tickTo t).entryFrame 2 f fun s r => s.addToks r f.offset.toNat (tokenWords f.payload)

/-- A REQCTL frame about a request whose decode runs on another module (R342, R374, R397). -/
def State.reqctl (s : State) (op r m p cnt off : Nat) : State :=
  s.trvOut 0x06 0 m p (s.req r).parcel 0 0
    (natLe 1 op ++ natLe 1 0 ++ natLe 2 r ++ natLe 2 s.own ++ natLe 2 0 ++ natLe 4 cnt ++ natLe 4 off)

/-- CANCEL (R342). -/
def cancel (f : SFrame) (t : Nat) (s : State) : State :=
  (s.tickTo t).entryFrame 3 f fun s r =>
    let q := s.req r
    match q.dest with
    | some (m, p, _) => if q.st = .ending then s.endAgain r
      else if m = s.own then s.requestEnd r 0x0007#16
      else if q.st = .decode then s.reqctl 1 r m p 0 0 else s.requestEnd r 0x0007#16
    | none => if q.st = .ending then s.endAgain r else s.requestEnd r 0x0007#16

/-- RESEND (R343). -/
def resend (f : SFrame) (t : Nat) (s : State) : State :=
  (s.tickTo t).entryFrame 4 f fun s r =>
    let q := s.req r
    let n := le f.payload 0 4
    let s := if q.st = .ending then s.endAgain r else s
    match q.dest with
    | some (m, p, _) =>
      if q.st = .decode ∧ m ≠ s.own then s.reqctl 2 r m p n f.offset.toNat else s.sendToks r f.offset.toNat n 65536
    | none => s.sendToks r f.offset.toNat n 65536

/-- ENDACK (R340). The entry of a request that another module decodes is freed as well. -/
def endack (f : SFrame) (t : Nat) (s : State) : State :=
  (s.tickTo t).entryFrame 5 f fun s r =>
    let q := s.req r
    if q.st = .ending ∨ (q.st = .decode ∧ q.dest.isSome) then s.freeReq r else s

/-! ### Timers -/

/-- PROMPT_TIMEOUT (R341). -/
def promptTimeout (r t : Nat) (s : State) : State :=
  let s := s.tickTo t
  let q := s.req r
  if q.st = .receiving ∧ q.lastPos + 1300000 ≤ s.aon then s.requestEnd r 0x0790#16 else s

/-- REQUEST_TTL (R342). -/
def requestTtl (r t : Nat) (s : State) : State :=
  let s := s.tickTo t
  let q := s.req r
  if q.live ∧ q.blk.ttl ≠ 0 ∧ q.accept + q.blk.ttl ≤ s.aon then s.requestEnd r 0x0791#16 else s

/-- END_RESEND_TIMER (R343); a frame with a parity error is dropped (R509). -/
def endResendTimer (r : Nat) (parityOk : Bool) (t : Nat) (s : State) : State :=
  let s := s.tickTo t
  let q := s.req r
  if q.st ≠ .ending ∨ 8 < q.endSends ∨ s.aon < q.lastEnd + 13000 then s
  else
    let s := if parityOk then s.endAgain r else s
    s.modReq r fun q => { q with endSends := q.endSends + 1, lastEnd := s.aon }

/-- ENDING_TIMEOUT (R340). -/
def endingTimeout (r t : Nat) (s : State) : State :=
  let s := s.tickTo t
  if (s.req r).st = .ending ∧ (s.req r).endAt + 13000000 ≤ s.aon then s.freeReq r else s

/-! ### Admission and handing over -/

/-- REQUEST_ADMIT (R340, R345). -/
def requestAdmit (p t : Nat) (s : State) : State :=
  let s := s.tickTo t
  match (s.parcel p).queue.head? with
  | some r => s.admitNow r
  | none => s

/-- The target with the most free KV quota that has room, ties by the rotating rule (R344, R404). -/
def pickTarget (n ptr need : Nat) (room : List Nat) : Option Nat :=
  let ok := (List.range n).filter fun i => decide (need ≤ room.getD i 0 ∧ 0 < room.getD i 0)
  let top := ok.foldl (fun m i => max m (room.getD i 0)) 0
  rotPick n ptr (ok.filter fun i => room.getD i 0 == top)

/-- The segments of a request: each layer and KV head (R355). -/
def Recipe.segments (r : Recipe) : List (Nat × Nat) :=
  (List.range r.nlayer).flatMap fun l => (List.range r.nkvh).map fun h => (l, h)

/-- The free KV quota of decode target `i`: of a Parcel of this module as its quota stands, of another module's as `room` tells (R344). -/
def State.targetRoom (s : State) (r : Nat) (room : List Nat) (i : Nat) (d : Nat × Nat) : Nat :=
  if d.1 = s.own then (if (s.parcel d.2).st = .active then s.freeH d.2 r else 0) else room.getD i 0

/-- DECODE_HANDOFF (R344): `room` gives the free KV quota, in pages, of each target on another module. -/
def decodeHandoff (r : Nat) (room : List Nat) (t : Nat) (s : State) : State :=
  let s := s.tickTo t
  let q := s.req r
  let p := s.parcel q.parcel
  match s.recipe q.parcel q.blk.recipe with
  | none => s
  | some rc =>
    if q.st ≠ .prefill ∨ !q.waitRoom then s
    else
      let rooms := ((List.range p.targets.length).zip p.targets).map fun x => s.targetRoom r room x.1 x.2
      match pickTarget p.targets.length p.targetPtr (rc.need true (q.blk.nctx + q.blk.ngen)) rooms with
      | none => s
      | some i =>
        let d := p.targets.getD i (0, 0)
        let s := s.modParcel q.parcel fun x => { x with targetPtr := (i + 1) % p.targets.length }
        s.modReq r fun q => { q with st := .shipping, waitRoom := false, segs := rc.segments, dest := some (d.1, d.2, 0) }

/-- The bytes of a segment (R355): its header and its compressed blocks `bs`. -/
def State.segment (s : State) (r layer head nb : Nat) (bs : List Byte) : List Byte :=
  let m := match (s.req r).remote with
    | some x => x
    | none => (s.own, r)
  natLe 2 m.2 ++ natLe 2 m.1 ++ natLe 1 layer ++ natLe 1 head ++ natLe 2 nb ++ List.replicate 24 0 ++ bs

/-- Sends a segment in frames of at most 4,096 B (R374). -/
def State.sendSeg (s : State) (r m p : Nat) (bs : List Byte) : State :=
  (List.range (ceilDiv bs.length 4096)).foldl (fun s k =>
    s.sendFrame 0x07 1 m p (s.req r).parcel (4096 * k) ((bs.drop (4096 * k)).take 4096) none (some r)) s

/-- A request whose last segment is stored at the decode side is in DECODE (R340): its target is the Parcel there, which holds its KV in
packed form; the Parcel that admitted it stays the one its client names (R342). -/
def State.shipped (s : State) (r : Nat) : State :=
  let q := s.req r
  if q.st ≠ .shipping ∨ !q.segs.isEmpty ∨ s.sent.any (fun f => f.req == some r) then s
  else match q.dest with
    | some (m, p, _) =>
      if m = s.own then (s.modReq r fun q => { q with st := .decode, parcel := p, packed := true, dest := none }).takeSerial r
      else s.modReq r fun q => { q with st := .decode }
    | none => s

/-- KV_SEGMENT_SHIP (R355): within the module the blocks are copied to the decode Parcel's pages, to another module they leave as frames. -/
def kvSegmentShip (r layer head t : Nat) (s : State) : State :=
  let s := s.tickTo t
  let q := s.req r
  match q.dest, s.recipe q.parcel q.blk.recipe with
  | some (m, p, _), some rc =>
    if q.st ≠ .shipping ∨ !q.segs.contains (layer, head) then s
    else
      let nt := q.blk.nctx + q.gen.length
      match s.kvBlocks r layer head rc nt with
      | .error st => s.requestEnd r st
      | .ok bs =>
        let sg := s.segment r layer head (ceilDiv nt 64) bs
        let s := s.modReq r fun q => { q with segs := q.segs.erase (layer, head), kvGens := kvGensOf rc.d bs q.kvGens }
        (if m = s.own then s.kvStore p r layer head bs else s.sendSeg r m p sg).shipped r
  | _, _ => s

/-! ### Adaptation (R363) -/

/-- A step whose deadline passes with a contribution missing ends with 0x0792. Contributions are awaited from the modules of the
Parcel's peer list. -/
def adaptStepDeadline (p step t : Nat) (s : State) : State :=
  let s := s.tickTo t
  let exp := ((s.parcel p).peers.map (·.1)).eraseDups
  let a := (s.adapts.find? fun a => a.parcel == p && a.step == step).getD
    { parcel := p, step := step, expected := exp, got := [], ended := none }
  if a.ended.isSome ∨ a.expected.all (fun m => a.got.any fun g => g.1 == m) then s
  else
    { s with adapts := (s.adapts.filter fun b => b.parcel != p || b.step != step) ++ [{ a with ended := some 0x0792#16 }] }

/-! ### The meanings -/

def execSubmit (f : SFrame) (t : Nat) (s : State) : Host.Outcome State Fault Refusal := .next (submit f t s)
def execPrompt (f : SFrame) (t : Nat) (s : State) : Host.Outcome State Fault Refusal := .next (prompt f t s)
def execCancel (f : SFrame) (t : Nat) (s : State) : Host.Outcome State Fault Refusal := .next (cancel f t s)
def execResend (f : SFrame) (t : Nat) (s : State) : Host.Outcome State Fault Refusal := .next (resend f t s)
def execEndack (f : SFrame) (t : Nat) (s : State) : Host.Outcome State Fault Refusal := .next (endack f t s)
def execIcmpv6Echo (port : Option (Fin 2)) (src dst : BitVec 128) (data : List Byte) (s : State)
    : Host.Outcome State Fault Refusal := .next (icmpv6Echo port src dst data s)
def execNeighbourDiscovery (port : Option (Fin 2)) (src target : BitVec 128) (s : State) : Host.Outcome State Fault Refusal :=
  .next (neighbourDiscovery port src target s)
def execPromptTimeout (r : BitVec 16) (t : Nat) (s : State) : Host.Outcome State Fault Refusal :=
  .next (promptTimeout r.toNat t s)
def execRequestTtl (r : BitVec 16) (t : Nat) (s : State) : Host.Outcome State Fault Refusal := .next (requestTtl r.toNat t s)
def execEndResendTimer (r : BitVec 16) (parityOk : Bool) (t : Nat) (s : State) : Host.Outcome State Fault Refusal :=
  .next (endResendTimer r.toNat parityOk t s)
def execEndingTimeout (r : BitVec 16) (t : Nat) (s : State) : Host.Outcome State Fault Refusal :=
  .next (endingTimeout r.toNat t s)
def execRequestAdmit (p : Fin 16) (t : Nat) (s : State) : Host.Outcome State Fault Refusal := .next (requestAdmit p t s)
def execDecodeHandoff (r : BitVec 16) (room : List Nat) (t : Nat) (s : State) : Host.Outcome State Fault Refusal :=
  .next (decodeHandoff r.toNat room t s)
def execKvSegmentShip (r : BitVec 16) (layer head : BitVec 8) (t : Nat) (s : State) : Host.Outcome State Fault Refusal :=
  .next (kvSegmentShip r.toNat layer.toNat head.toNat t s)
def execAdaptStepDeadline (p : Fin 16) (step : BitVec 32) (t : Nat) (s : State) : Host.Outcome State Fault Refusal :=
  .next (adaptStepDeadline p step.toNat t s)

end Sys2Proof.Machine
end

