-- ==== Sys2Proof/Machine/TokenGate.lean ====
section
/-!
DEFINITION. The Token Gate (R356 to R360, R404 to R408, R503): the choice of a token and its arbitration.
-/

namespace Sys2Proof.Machine

/-! ### Grammar tables and masks (R357) -/

/-- The place of state 0 in a grammar table. -/
def gramBase (b : List Byte) : Nat := ceilDiv (64 + le b 4 4) 64 * 64
def gramState (b : List Byte) (k : Nat) : Nat := gramBase b + 576 * k
def gramClass (b : List Byte) (v : Nat) : Nat := le b (64 + v) 1
def gramAllows (b : List Byte) (k c : Nat) : Bool := le b (gramState b k + c / 8) 1 / 2 ^ (c % 8) % 2 == 1
def gramNext (b : List Byte) (k c : Nat) : Nat := le b (gramState b k + 32 + 2 * c) 2
def gramFinal (b : List Byte) (k : Nat) : Bool := le b (gramState b k + 544) 1 % 2 == 1

/-- Whether a table may be loaded (R357): its size, its header, its states and its reserved bytes. -/
def gramOk (b : List Byte) : Bool :=
  let n := le b 0 4
  let v := le b 4 4
  decide (b.length ≤ 4194304 ∧ 1 ≤ n ∧ n ≤ 65535) && zeros b 10 54 && b.length == gramState b n
    && decide (le b 8 2 < n) && zeros b (64 + v) (gramBase b - (64 + v))
    && (List.range n).all fun k =>
      (List.range 256).all (fun c => decide (gramNext b k c < n) && gramNext b k c != 0xFFFF)
        && decide (le b (gramState b k + 544) 1 < 2) && zeros b (gramState b k + 545) 31

/-! ### The choice (R358, R359) -/

/-- Whether a token is allowed (step 1). -/
def State.tokAllowed (s : State) (j : GateJob) (v : Nat) : Bool :=
  let p := s.parcel j.parcel
  (j.maskid == 0xFFFF || le (tget [] p.masks j.maskid) (v / 8) 1 / 2 ^ (v % 8) % 2 == 1)
    && (j.gstate == 0xFFFF
      || (let b := tget [] p.grammars j.gramid; gramAllows b j.gstate (gramClass b v)))

/-- A word of the candidates: the token and its z. -/
def gateBefore (a b : Nat × Lns) : Bool := decide (lnsKey b.2 < lnsKey a.2) || (lnsKey a.2 == lnsKey b.2 && decide (a.1 ≤ b.1))

/-- The K highest z among the allowed tokens, in rank order (steps 1 to 3). -/
def State.candidates (s : State) (j : GateJob) : List (Nat × Lns) :=
  let zs := ((List.range j.v).filter fun v => s.tokAllowed j v).map fun v =>
    (v, (lnsDiv (BitVec.ofNat 16 (leNat (s.rbytes (j.logits + 2 * v) 2))) j.temp).1)
  (zs.mergeSort gateBefore).take (if j.topk = 0 then 1024 else j.topk)

/-- The shortest run of candidates whose weights reach a bound (step 4). -/
def reach (bound acc : Lns) : List ((Nat × Lns) × Lns) → List (Nat × Lns)
  | [] => []
  | x :: r =>
    let a := (lnsAdd acc x.2).1
    if lnsGe a bound then [x.1] else x.1 :: reach bound a r

/-- The kept candidates (step 4). -/
def keptOf (topp : Lns) (cs : List (Nat × Lns)) : List (Nat × Lns) :=
  if topp = 0 then cs
  else
    let zmax := (cs.head?.map (·.2)).getD lnsZero
    let ws := cs.map fun c => (c, (lnsExp2 (lnsSub c.2 zmax).1).1)
    let total := ws.foldl (fun a w => (lnsAdd a w.2).1) lnsZero
    reach (lnsMul topp total).1 lnsZero ws

/-- The generator's seed for a job (R359). -/
def gateSeed (serial step : Nat) (nonce : BitVec 64) : BitVec 64 :=
  let v := BitVec.ofNat 64 (serial <<< 40 ||| ((step % 2 ^ 24) <<< 16 ||| 0xFFFF)) ^^^ nonce
  if v = 0 then 1 else v

/-- The draws r, one half of an output each, lower half first. -/
def gateDraws (seed : BitVec 64) (n : Nat) : List Nat :=
  ((genRun (ceilDiv n 2) seed).flatMap fun x => [x.toNat % 2 ^ 24, x.toNat >>> 32 % 2 ^ 24]).take n

/-- The kept token with the largest z + n (step 5). -/
def gateBest (ks : List ((Nat × Lns) × Nat)) : Option Nat :=
  (ks.foldl (fun (b : Option (Nat × Lns)) x =>
    let y := (x.1.1, (lnsAdd x.1.2 (Config.gumbel x.2)).1)
    match b with
    | none => some y
    | some z => if lnsKey z.2 < lnsKey y.2 ∨ (lnsKey z.2 = lnsKey y.2 ∧ y.1 < z.1) then some y else some z) none).map (·.1)

/-- The token and the new grammar state (steps 5 and 6); none when no token is allowed. -/
def State.gateChoice (s : State) (j : GateJob) (nonce : BitVec 64) : Option (Nat × Nat) :=
  let ks := keptOf j.topp (s.candidates j)
  (gateBest (ks.zip (gateDraws (gateSeed j.serial j.step nonce) ks.length))).map fun v =>
    (v, if j.gstate = 0xFFFF then 0xFFFF
      else let b := tget [] (s.parcel j.parcel).grammars j.gramid; gramNext b j.gstate (gramClass b v))

/-- The fabric cycles of a job (R360). -/
def State.gateCycles (s : State) (j : GateJob) : Nat :=
  40 + ceilDiv j.v 256 + 64 + ceilDiv (keptOf j.topp (s.candidates j)).length 2

/-! ### Jobs -/

/-- The next job: a known-answer job, else the first of the Parcel that the arbiter chooses (R407, R408, R503). -/
def State.nextJob (s : State) (f : Nat) : Option (GateJob × Arb) :=
  let g := s.gate f
  match g.queue.find? (·.kat) with
  | some j => some (j, g.arb)
  | none =>
    let sh := (List.range 17).map fun i => s.share (160 + f) i
    let arb := g.arb.turned sh (g.queue.map fun j => j.parcel + 1)
    (arb.pick sh (g.queue.map fun j => j.parcel + 1)).bind fun i =>
      (g.queue.find? fun j => j.parcel + 1 == i).map fun j => (j, arb.charge sh i (ceilDiv (s.gateCycles j) 1024))

/-- The NONCE that a request's instance began with (R60, R61). -/
def State.reqNonce (s : State) (j : GateJob) : BitVec 64 := (s.req j.req).nonce

/-- Records the chosen token: it is sent in a TOKENS frame, and the request may end (R342, R509). -/
def State.tokenChosen (s : State) (r : Nat) (tok gs : Nat) (final parityOk : Bool) : State :=
  let q := s.req r
  let off := q.gen.length
  let s := s.modReq r fun q => { q with gen := q.gen ++ [tok], gstate := gs }
  if !parityOk then s.requestEnd r 0x03E3#16
  else
    let s := s.toClient r 0x82 0 off (tokenBytes [tok])
    let s := s.modReq r fun q => { q with sent := q.gen.length, sentAt := q.sentAt ++ [s.aon],
                                          firstTok := q.firstTok.orElse fun _ => some s.aon }
    if q.blk.ngen ≤ off + 1 then s.requestEnd r 0
    else if q.blk.stops.contains tok then s.requestEnd r 0x0005#16
    else if final then s.requestEnd r 0x0006#16
    else s

/-- Notes the status that a Gate returns (R365). -/
def State.gateLast (s : State) (f : Nat) (st : Status) (deadEnd : Bool) : State :=
  s.modGate f fun g => { g with status := (if deadEnd then setB g.status 1 else g.status) &&& 0x0000FFFF#32
                                            ||| (st.setWidth 32 <<< 16) }

/-- The pages that a job reads: its logits', its mask's and its grammar table's. -/
def State.gatePages (s : State) (j : GateJob) : List Nat :=
  let obj (k n : Nat) : List Nat := pagesOf (Config.objectPlace j.parcel k / 4) n
  pagesOf j.logits (2 * j.v)
    ++ (if j.maskid = 0xFFFF then [] else obj j.maskid (tget [] (s.parcel j.parcel).masks j.maskid).length)
    ++ (if j.gstate = 0xFFFF then [] else obj (64 + j.gramid) (tget [] (s.parcel j.parcel).grammars j.gramid).length)

/-- What the reading of a job's logits meets (R305, R318, R319, R326): the status that it ends with. -/
def State.gateRead (s : State) (f : Nat) (j : GateJob) (env : Env) : State × Option Status :=
  let n := 2 * j.v
  match s.trackerRead f j.logits n with
  | some st => (s.countRefused (st, j.logits), some st)
  | none =>
    let s := (pagesOf j.logits n).foldl State.noteRead s
    if env.ue then let r := s.uncorrectable j.logits; (r.1, some r.2)
    else (if env.ce then s.corrected (let e := s.page (rpageOf j.logits); stackNum e.loc e.lstack) else s, none)

/-- GATE_JOB (R358): the Gate starts its next job. A job whose logits cannot be read ends there, and its request with it. -/
def gateJob (f : Nat) (env : Env) (t : Nat) (s : State) : State :=
  let s := s.tickTo t
  if (s.gate f).run.isSome ∨ s.pwr.silent then s
  else match s.nextJob f with
  | none => s
  | some (j, a) =>
    let s := s.modGate f fun g => { g with queue := g.queue.erase j, arb := a }
    if j.kat then s.modGate f fun g => { g with run := some (j, none), began := s.aon }
    else
      let r := (s.modGate f fun g => { g with cache := (s.gatePages j).foldl (cacheTouch 16) g.cache }).gateRead f j env
      match r.2 with
      | some st => r.1.requestEnd j.req st
      | none =>
        let c := r.1.gateChoice j (r.1.reqNonce j)
        r.1.modGate f fun g => { g with run := some (j, c), began := r.1.aon, gen := gateSeed j.serial j.step (r.1.reqNonce j) }

/-- GATE_JOB_COMPLETE (R342, R358, R360, R503, R504). -/
def gateJobComplete (f : Nat) (parityOk katPass : Bool) (t : Nat) (s : State) : State :=
  let s := s.tickTo t
  match (s.gate f).run with
  | none => s
  | some (j, c) =>
    let g := s.gate f
    let s := s.modGate f fun g => { g with run := none }
    let s := (s.srvCount f .jobs).srvCount f .logits j.v
    if j.kat then
      if katPass then s.modGate f fun x => { x with lastKat := g.began }
      else s.katFailed ((List.range 16).map (16 * f + ·)) (64 + f) 1 g.lastKat
    else if (s.req j.req).st ≠ .decode ∨ (s.req j.req).serial ≠ j.serial then s
    else match c with
      | none => (s.gateLast f 0x0390#16 true).requestEnd j.req 0x0390#16
      | some (v, gs) =>
        let final := j.gstate != 0xFFFF && gramFinal (tget [] (s.parcel j.parcel).grammars j.gramid) gs
        let st : Status := if (s.req j.req).blk.ngen ≤ (s.req j.req).gen.length + 1 then 0
          else if (s.req j.req).blk.stops.contains v then 0x0005#16 else if final then 0x0006#16 else 0
        let s := if st = 0 then s else s.gateLast f st false
        s.tokenChosen j.req v gs final parityOk

/-! ### The meanings -/

def execGateJob (f : Facet) (env : Env) (t : Nat) (s : State) : Host.Outcome State Fault Refusal := .next (gateJob f env t s)
def execGateJobComplete (f : Facet) (parityOk katPass : Bool) (t : Nat) (s : State) : Host.Outcome State Fault Refusal :=
  .next (gateJobComplete f parityOk katPass t s)

end Sys2Proof.Machine
end

