-- ==== Sys2Proof/Machine/TrvOps.lean ====
section
/-!
DEFINITION. The Traverse's links, ports, routes and closure (R370, R377 to R382, R387 to R396), as the families that change them
share them.
-/

namespace Sys2Proof.Machine

/-! ### Ports and peers (R377, R385) -/

/-- The (module, port) at the other end of a port. -/
def Survey.peerPort (v : Survey) (m p : Nat) : Option (Nat × Nat) :=
  ((v.portsOf m).find? fun x => x.port == p).bind fun x =>
    (((List.range 18).find? fun k => x.has k).bind fun k => v.linkAt m k |>.map fun l => l.peer m k).bind fun q =>
      ((v.portsOf q.1).find? fun y => y.has q.2).map fun y => (q.1, y.port)

/-- The longest cable of a port, in 0.1 m. -/
def Survey.cable (v : Survey) (m p : Nat) : Nat :=
  match (v.portsOf m).find? fun x => x.port == p with
  | some x => (List.range 18).foldl (fun n k => if x.has k then max n (((v.linkAt m k).map (·.len)).getD 0) else n) 0
  | none => 0

/-! ### Routes (R379) -/

/-- A directed edge of the route graph: from (m, s) by a port to (n, s'). -/
structure Edge where
  m  : Nat
  s  : Nat
  port : Nat
  n  : Nat
  s' : Nat
  deriving DecidableEq, Repr

/-- The edges that the ports outside FAILSET give. -/
def Survey.edges (v : Survey) (failed : List (Nat × Nat)) : List Edge :=
  v.ports.flatMap fun p =>
    if failed.contains (p.module, p.port) then []
    else match v.peerPort p.module p.port with
      | none => []
      | some q =>
        if v.dateline p.module p.port then [{ m := p.module, s := 0, port := p.port, n := q.1, s' := 1 }]
        else [{ m := p.module, s := 0, port := p.port, n := q.1, s' := 0 }, { m := p.module, s := 1, port := p.port, n := q.1, s' := 1 }]

/-- The numbers of edges from the nodes (2 × module + set) to a destination: the nodes at `k` edges are `front`. -/
def distances (es : List Edge) (k : Nat) (front : List Nat) (known : Tab Nat) : Nat → Tab Nat
  | 0 => known
  | n + 1 =>
    let next := ((es.filter fun e => front.contains (2 * e.n + e.s')).map fun e => 2 * e.m + e.s).eraseDups.filter fun x =>
      !(tkeys known).contains x
    if next.isEmpty then known else distances es (k + 1) next (known ++ next.map fun x => (x, k + 1)) n

def distTo (es : List Edge) (d n : Nat) : Tab Nat := distances es 0 [2 * d, 2 * d + 1] [(2 * d, 0), (2 * d + 1, 0)] (2 * n)

/-- The first edge from (m, s) on a path of fewest edges: the lowest-numbered port. -/
def nextEdge (es : List Edge) (ds : Tab Nat) (m s : Nat) : Option Edge :=
  match ds.find? fun x => x.1 == 2 * m + s with
  | none => none
  | some (_, k) =>
    if k = 0 then none
    else (es.filter fun e => e.m == m && e.s == s && ds.contains (2 * e.n + e.s', k - 1)).foldl (fun b e => match b with
      | none => some e
      | some x => if e.port < x.port then some e else some x) none

/-- The routes of module `own`: the port by 2 × destination + set. -/
def Survey.routes (v : Survey) (own : Nat) (failed : List (Nat × Nat)) : Tab Nat :=
  let es := v.edges failed
  v.mods.flatMap fun d =>
    if d.1 = own then []
    else
      let ds := distTo es d.1 v.mods.length
      [0, 1].filterMap fun s => (nextEdge es ds own s).map fun e => (2 * d.1 + s, e.port)

/-! ### Group latency (R382, R387) -/

/-- The sum of the hop latencies along the route from (m, s), in units of 0.5 ns; none without a route. -/
def Survey.walk (v : Survey) (es : List Edge) (ds : Tab Nat) (m s : Nat) : Nat → Option Nat
  | 0 => none
  | n + 1 =>
    match ds.find? fun x => x.1 == 2 * m + s with
    | none => none
    | some (_, 0) => some 0
    | some _ => (nextEdge es ds m s).bind fun e => (Survey.walk v es ds e.n e.s' n).map fun x => x + 320 + v.cable m e.port

def Survey.latency (v : Survey) (es : List Edge) (a b : Nat) : Option Nat :=
  v.walk es (distTo es b v.mods.length) a 0 (2 * v.mods.length + 1)

/-- The largest of some sums; none when one of them is. -/
def maxAll (l : List (Option Nat)) : Option Nat :=
  l.foldl (fun a b => a.bind fun x => b.map fun y => max x y) (some 0)

/-- The latency from the root of a tree to a member, along parent links. -/
def Survey.fromRoot (v : Survey) (es : List Edge) (ms : List (Nat × Nat)) (i : Nat) : Nat → Option Nat
  | 0 => none
  | n + 1 =>
    let m := ms.getD i (0, 0xFFFF)
    if m.2 = 0xFFFF then some 0
    else (Survey.fromRoot v es ms m.2 n).bind fun x => (v.latency es (ms.getD m.2 (0, 0)).1 m.1).map (x + ·)

/-- LG of a group in units of 0.5 ns (R387). -/
def Survey.groupLat (v : Survey) (es : List Edge) (g : SGroup) : Option Nat :=
  let ms := g.mems.map (·.1)
  let n := ms.length
  let pairs := (List.range (if g.kind = 0 then n else n - 1)).map fun i => (ms.getD i 0, ms.getD ((i + 1) % n) 0)
  if g.kind = 2 then (maxAll ((List.range n).map fun i => v.fromRoot es g.mems i (n + 1))).map (2 * ·)
  else (maxAll (pairs.map fun p => v.latency es p.1 p.2)).map (2 * (n - 1) * ·)

/-- Whether a group meets its budget: LG ≤ LATBUDGET / 13 µs. -/
def Survey.groupOk (v : Survey) (es : List Edge) (g : SGroup) : Bool := match v.groupLat es g with
  | some x => decide (13 * x ≤ 2000 * g.budget)
  | none => false

/-! ### Links (R388, R401) -/

def LinkSt.num : LinkSt → Nat
  | .down => 0
  | .training => 1
  | .hello => 2
  | .quarantined => 3
  | .active => 4
  | .probation => 5
  | .failed => 6

/-- DETAIL of LINK_EVENT (R427). -/
def linkDetail (k st : Nat) (status : Status) : List Byte := natLe 1 k ++ natLe 1 st ++ natLe 2 status.toNat

def State.linkTo (s : State) (k : Nat) (st : LinkSt) : State := s.modLink k fun l => { l with st := st, since := s.aon }

/-- TRV_LAST_STATUS. -/
def setLastSt (r : BitVec 64) (st : Status) : BitVec 64 := (r &&& ~~~ 0xFFFF0000#64) ||| (st.setWidth 64 <<< 16)

/-- A link as it begins anew: nothing sent, nothing expected. -/
def TLink.fresh (l : TLink) : TLink := { l with send := 0, expect := 0, unacked := [], replayed := 0, retrain := false, used := [] }

/-- The HELLO payload of a link (R389). -/
def State.helloPay (s : State) (k : Nat) : List Byte :=
  let id := match s.trv.survey with
    | some v => natLe 4 v.planId ++ natLe 2 v.planGen
    | none => natLe 6 0
  natLe 2 s.own ++ natLe 1 k ++ natLe 1 0x11 ++ id ++ natLe 6 0 ++ natLe 8 Config.devId.toNat ++ natLe 8 0

/-- Clears ENABLE of an entry and records it in the Cairn (R525). -/
def State.disarm (s : State) (e : Nat) : State :=
  let x := tget .reset s.dep.tperts e
  if !x.action.getLsbD 0 then s
  else
    { s with dep := { s.dep with tperts := fput s.dep.tperts e { x with action := x.action &&& ~~~ 1#64 } } }.cairnEvent 0x0040 0
      (natLe 1 e ++ natLe 1 0)

/-- Disarms the entries for which `p` holds. -/
def State.disarmWhere (s : State) (p : Tpert → Bool) : State :=
  (List.range 16).foldl (fun s e => if p (tget .reset s.dep.tperts e) then s.disarm e else s) s

/-! ### Events (R391 to R393) -/

/-- Places a CLOSURE or REOPEN on every port with an ACTIVE member, but for `but`. -/
def State.flood (s : State) (kind : Nat) (pay : List Byte) (but : Option Nat) : State :=
  match s.trv.survey with
  | none => s
  | some v =>
    ((v.portsOf s.own).map (·.port)).foldl (fun s p =>
      if but = some p ∨ (s.activeMembers p).isEmpty then s
      else match v.peerPort s.own p with
        | none => s
        | some q =>
          let o : Out := s.trvFrame kind 0 q.1 0 0 0 0 pay
          let e : EFrame := { what := o, cls := 0, set := 0, dest := q.1, len := 36 + pay.length, kind := kind, parcel := some 0,
                              hops := s.planHead.1, ingress := 18 }
          (s.modPort p fun x => { x with queue := x.queue ++ [e] }).pump p ((s.tport p).queue.length + 1)) s

/-- The payload of an event about a port of this module (R392). -/
def eventPay (origin ecount ma pa mb pb : Nat) : List Byte :=
  natLe 2 origin ++ natLe 2 ecount ++ natLe 2 ma ++ natLe 1 pa ++ natLe 1 0 ++ natLe 2 mb ++ natLe 1 pb ++ natLe 5 0

/-- A new event has been received or made: the routes are to be recomputed (R393). -/
def State.newEvent (s : State) : State := { s with trv := { s.trv with cl := { s.trv.cl with event := some s.aon } } }

/-- Both ends of a port enter FAILSET, and REOPEN events that came before no longer count (R391). -/
def Closure.close (c : Closure) (a b : Nat × Nat) : Closure :=
  { c with failed := a :: b :: (c.failed.filter fun x => x != a && x != b),
           reopened := c.reopened.filter fun x => (x.1, x.2.1) != a && (x.1, x.2.1) != b }

/-- A REOPEN of one end of a port; with both it leaves FAILSET (R391). -/
def Closure.reopen (c : Closure) (a b : Nat × Nat) (origin : Nat) : Closure :=
  let k := if origin = a.1 then a else b
  let l := (k.1, k.2, origin) :: c.reopened.filter fun x => x != (k.1, k.2, origin)
  if l.any (fun x => (x.1, x.2.1) == a) && l.any (fun x => (x.1, x.2.1) == b) then
    { c with failed := c.failed.filter fun x => x != a && x != b,
             reopened := l.filter fun x => (x.1, x.2.1) != a && (x.1, x.2.1) != b }
  else { c with reopened := l }

def State.modCl (s : State) (f : Closure → Closure) : State := { s with trv := { s.trv with cl := f s.trv.cl } }

/-- This module sends an event about its port `p` (R391). -/
def State.ownEvent (s : State) (kind p : Nat) : State :=
  match s.trv.survey.bind fun v => v.peerPort s.own p with
  | none => s
  | some q =>
    let n := (s.trv.cl.ecount + 1) % 65536
    let a := (s.own, p)
    let s := s.modCl fun c => let c := { c with ecount := n }; if kind = 0x21 then c.close a q else c.reopen a q s.own
    (s.newEvent).flood kind (eventPay s.own n s.own p q.1 q.2) none

/-! ### Failure (R370, R378, R394) -/

/-- A DROP to the source of a frame that this module discards (R375, R380, R381). -/
def State.sendDrop (s : State) (kind : Nat) (fr : TFrame) (st : Status) : State :=
  if noDrop kind then s
  else s.trvOut 0x09 0 (fr.src.toNat % 4096) fr.sparcel.toNat fr.dparcel.toNat fr.tag.toNat 0 (dropPay st kind fr.tag.toNat)

/-- The source of a queued frame hears that it is discarded; a frame of this module comes back to it as a DROP. -/
def State.dropQueued (s : State) (e : EFrame) (st : Status) : State :=
  let s := s.trvCount .dropped
  match e.what with
  | .forward _ _ _ _ kind fr _ => s.sendDrop kind fr st
  | .traverse _ _ _ _ kind _ _ dp sp tag _ _ _ _ _ =>
    if noDrop kind then s else s.emit (s.trvFrame 0x09 0 s.own sp dp tag 0 (dropPay st kind tag))
  | _ => s

/-- Sends the unacknowledged frames of a failed member on the port's other members, in their order (R378). -/
def State.resendOn (s : State) (p : Nat) (l : List UFrame) : State :=
  l.foldl (fun s u =>
    match rotPick 18 (s.tport p).turn (s.activeMembers p) with
    | some k => (s.modPort p fun x => { x with turn := (k + 1) % 18 }).sendOn p k u.pseq u.fr
    | none => s) s

/-- A link becomes FAILED (R370, R378, R391, R394). -/
def State.linkFails (s : State) (k : Nat) : State :=
  let l := s.tlink k
  let s := (s.modLink k fun l => { l.fresh with st := .failed, since := s.aon, status := setB (setLastSt l.status 0) 4 }).notify 16
    0x0031 (linkDetail k 6 0)
  if l.st ≠ .active then s
  else match s.portOf k with
    | none => s
    | some p =>
      if (s.activeMembers p).isEmpty then (l.unacked.foldl (fun s u => s.dropQueued u.fr 0x0531#16) s).ownEvent 0x21 p
      else s.resendOn p l.unacked

/-- A link retrains (R370); in PROBATION that is a failure (R388). -/
def State.linkRetrains (s : State) (k : Nat) : State :=
  let s := (s.modLink k fun l => { l with retrain := true, status := setB l.status 5 }).linkCount k .retrains
  if (s.tlink k).st = .probation then s.linkFails k else s

/-- A port whose first link becomes ACTIVE begins its numbers anew. -/
def State.portBegins (s : State) (k : Nat) : State := match s.portOf k with
  | some p => if (s.activeMembers p).isEmpty then s.modPort p fun x => { x with tx := 0, rx := 0, early := [] } else s
  | none => s

/-- A link enters ACTIVE. -/
def State.linkActive (s : State) (k : Nat) : State :=
  let s := (s.portBegins k).linkTo k .active
  let s := s.disarmWhere fun x => x.on 5 k
  match s.portOf k with
  | some p => s.pump p ((s.tport p).queue.length + 1)
  | none => s

/-- New routes take effect: the frames that waited on failed ports leave on their new routes or are discarded (R381, R393). -/
def State.takeRoutes (s : State) : State :=
  match s.trv.survey with
  | none => s
  | some v =>
    let rt := v.routes s.own s.trv.cl.failed
    let s := { s with trv := { s.trv with routes := rt } }
    ((v.portsOf s.own).map (·.port)).foldl (fun s p =>
      if !s.trv.cl.failed.contains (s.own, p) then s
      else
        let q := (s.tport p).queue
        let s := s.modPort p fun x => { x with queue := [] }
        q.foldl (fun s e =>
          if e.kind = 0x21 ∨ e.kind = 0x22 then s
          else match s.route e.dest e.set with
            | none => s.dropQueued e 0x0532#16
            | some p' => (s.modPort p' fun x => { x with queue := x.queue ++ [e] }).pump p' ((s.tport p').queue.length + 1)) s) s

/-- LG of every group is recomputed after a closure (R395): a group over its budget sets BUDGET_EXCEEDED and is told to every
local Parcel with Traverse peers. -/
def State.checkGroups (s : State) : State :=
  match s.trv.survey with
  | none => s
  | some v =>
    let es := v.edges s.trv.cl.failed
    (v.groups.filter fun g => !v.groupOk es g).foldl (fun s g =>
      let s := { s with trv := { s.trv with status := setB s.trv.status 2 } }
      let lg := ((v.groupLat es g).map fun x => ceilDiv (13 * x) 2000).getD 0xFFFFFFFF
      let pay := natLe 2 g.group ++ natLe 4 lg ++ natLe 4 g.budget
      (List.range 16).foldl (fun s p => if (s.parcel p).st ≠ .absent ∧ (s.parcel p).peers ≠ [] then s.notify p 0x0030 pay else s) s) s

end Sys2Proof.Machine
end

