-- ==== Sys2Proof/Machine/Flags.lean ====
section
/-!
DEFINITION. The registers: what each shows (R7, R70, R102, R138, R175, R215, R261, R291, R330, R365, R401, R402, R436, R437, R451,
R475, R499, R529, R539) and what a write to one clears or sets. A register is composed from the state whose fields it shows; only its
flags and last statuses are kept as words.
-/

namespace Sys2Proof.Machine

/-- A field of `w` bits at bit `lo`. -/
def field (lo w v : Nat) : Nat := v % 2 ^ w * 2 ^ lo

/-- The bits of a stored word that a mask keeps. -/
def keep (r : BitVec 32) (mask : Nat) : Nat := (r &&& BitVec.ofNat 32 mask).toNat

def planeCode (p : Plane) : Nat := match p.fill with
  | .empty => 0
  | .loading => 1
  | .full => if p.merged then 3 else 2

def bankCode (b : Bank) : Nat := match b.fill with
  | .empty => 0
  | .loading => 1
  | .full => 2

/-- STATE of STN_STATUS. -/
def Station.stateCode (x : Station) : Nat :=
  match x.mode with
  | .idle => 0
  | .rerun => 4
  | .scrub => 5
  | .running => match x.held with
    | none => 1
    | some h => if h.why.isFreeze then 2 else 3

/-- A Station register (R70, R102, R138, R175, R215, R261). -/
def State.stnReg (s : State) (r : RegId) (n : Nat) : Option Nat :=
  let x := s.stn n
  let c := x.core
  match r with
  | .stnFmtStatus => some (keep c.fmtStatus 0x3F)
  | .stnArrStatus => some (keep c.arrStatus 0xFFFF0040 + field 4 2 (planeCode c.plane1) + field 2 2 (planeCode c.plane0)
      + field 1 1 (b2n (if c.active then c.plane1.blk else c.plane0.blk)) + field 0 1 (b2n c.active))
  | .stnBspStatus => some (keep c.bspStatus 0xFFFF0001 + field 12 4 c.bank1.passes.length + field 8 4 c.bank0.passes.length
      + field 7 1 (b2n c.bank1.pair) + field 6 1 (b2n c.bank0.pair) + field 4 2 (bankCode c.bank1) + field 2 2 (bankCode c.bank0)
      + field 1 1 (b2n (c.bruns.any fun b => decide (b.pass < (c.bank b.bank).passes.length))))
  | .accStatus => some (keep c.accStatus 0xFFFF3F03)
  | .recStatus => some (keep c.recStatus 0xFFFF000B + field 2 1 (b2n c.recBusy))
  | .stnStatus => some (keep c.stnStatus 0xFFFF002F + field 9 3 x.stateCode + field 6 3 (s.dutyOf (facetOf n) - 1))
  | .stnChkCtl => some (keep c.chkCtl 3)
  | .stnConflictInfo => some c.conflict.toNat
  | .stnCounter k => if k < 46 then some (ctrGet c.ctr k).toNat else none
  | _ => none

/-- THERM of STN_MEM_STACK_STATUS. -/
def Stack.therm (x : Stack) (k : Nat) : Nat :=
  if x.refuse then 3 else if 20 ≤ k then (if x.suspend then 4 else 0) else if x.halved then 2 else if x.duty then 1 else 0

/-- A stack register (R330). -/
def State.stackReg (s : State) (k : Nat) : Nat :=
  let x := s.stack k
  let d := if k < 4 then s.dutyOf k - 1 else if k < 20 then s.dutyOf ((k - 4) / 4) - 1 else 7
  keep x.status 0x17 + field 22 10 x.temp + field 19 3 (x.therm k) + field 16 3 d
    + field 3 1 (b2n (!s.nv && s.mem.waitingStacks.contains k))

def State.occupied (s : State) (f : Nat) : Nat := s.trk.table.countP fun e => e.1 / 4096 == f && e.2.st != .free

/-- A link's register (R401; VERSION and PORT: log entry 154). -/
def State.linkReg (s : State) (k : Nat) : Nat :=
  let l := s.tlink k
  (l.status &&& 0xFFFF8000FFFF00F0#64).toNat + field 42 5 ((s.portOf k).getD 0) + field 38 4 (b2n (l.st == .active || l.st == .probation))
    + field 0 3 l.st.num

/-- TRV_PLAN_STATUS (R402). -/
def State.trvPlanReg (s : State) : Nat :=
  match s.trv.survey with
  | none => keep s.trv.status 4
  | some v => keep s.trv.status 4 + field 16 16 v.planGen + field 4 12 s.modNum
      + field 3 1 (b2n (s.trv.cl.event.isSome || s.trv.cl.running)) + field 1 1 1

/-- MBX_STATUS (R436). -/
def State.boxReg (s : State) (m : Nat) : Nat :=
  let b := s.box m
  field 16 16 b.next.toNat + field 10 6 (b.held.countP (·.gap)) + field 8 2 ((b.bound.map fun u => transportNum u.transport).getD 0)
    + field 7 1 (b2n b.wait.isSome) + field 6 1 (b2n (decide (1024 ≤ b.queue.length))) + keep b.status 0x20

def PlState.num : PlState → Nat
  | .absent => 0
  | .active => 1
  | .resetting => 2

/-- MBX_PARCEL_STATUS (R437). -/
def State.parcelReg (s : State) (p : Nat) : Nat :=
  let q := s.parcel p
  field 24 8 (tget 0 s.mem.mgen p).toNat + field 16 2 q.st.num
    + (if q.st = .absent then 0 else ((List.range 64).filter fun k => (s.stationSet p).getLsbD k).length)

/-- MBX_PLAN_STATUS (R451). -/
def State.planReg (s : State) : Nat :=
  let p := s.plan
  field 16 16 p.last.toNat + ((List.range 4).map fun m => field (8 + m) 1 (b2n ((tkeys p.overlays).contains m))).sum
    + field 4 1 (b2n p.apply.isSome) + field 2 2 p.mode + field 1 1 (b2n p.ovl.isSome) + field 0 1 (b2n (p.force.gen == 0))

def FlashWhy.isImage : FlashWhy → Bool
  | .image _ _ => true
  | _ => false

/-- SEC_STATUS (R475). -/
def State.secReg (s : State) : Nat :=
  let x := s.sec
  field 16 16 x.last.toNat + field 15 1 (b2n x.open') + field 14 1 (b2n x.locked) + field 13 1 (b2n (x.flash.any fun j => j.why.isImage))
    + field 12 1 (b2n x.fuseTo.isSome) + field 11 1 (b2n x.treeReady) + field 0 7 x.svn

def State.lmsReg (s : State) : Nat := field 21 7 s.sec.bucket + field 0 21 s.sec.nextQ

/-- Whether BOOST_ALLOW = 0 is in force (R442). -/
def State.boostForbidden (s : State) : Bool := match s.cfg 0x0006 0xFF 0 with
  | some b => le b 0 1 == 0
  | none => false

/-- CLK_STATUS (R499). -/
def State.clkReg (s : State) : Nat :=
  let c := s.clk
  field 28 4 c.div + field 24 4 c.margin + field 20 4 c.proj + field 16 4 c.guard + field 15 1 (b2n s.boostForbidden)
    + field 14 1 (b2n c.supply) + field 13 1 (b2n c.switch.isSome) + field 12 1 (b2n c.pll) + field 7 5 c.ssc.1 + field 1 6 c.ssc.2
    + field 0 1 (b2n c.refOk)

/-- The mean of the power samples of the last 1 ms. -/
def Pwr.mean (p : Pwr) : Nat := if p.samples.isEmpty then 0 else p.samples.sum / p.samples.length

def Supply.num : Supply → Nat
  | .normal => 0
  | .sag => 1
  | .abort => 2
  | .shut => 2

/-- PWR_STATUS (R499). -/
def State.pwrReg (s : State) : Nat :=
  field 16 16 s.pwr.vin.toNat + field 4 12 s.pwr.mean + field 2 2 s.pwr.supply.num + field 1 1 (b2n s.nv)

def SPow.num : SPow → Nat
  | .off => 0
  | .parked => 1
  | .ready => 2
  | .running => 3

def State.pwrStnReg (s : State) (lo : Nat) : Nat := ((List.range 32).map fun k => field (2 * k) 2 (s.spow (lo + k)).num).sum

/-- CRN_STATUS (R529). -/
def State.crnReg (s : State) : Nat :=
  let c := s.cairn
  field 19 13 c.next + field 9 10 c.buf.length + field 2 1 (b2n (!s.nv && c.buf.any (·.closed))) + field 1 1 (b2n c.lost)
    + field 0 1 (b2n c.wrapped)

/-- A register of the module, with INDEX 0 (R402, R451, R475, R499, R529, R539). -/
def State.modReg (s : State) (r : RegId) : Option Nat :=
  match r with
  | .trvPlanStatus => some s.trvPlanReg
  | .mbxPlanStatus => some s.planReg
  | .secStatus => some s.secReg
  | .secLmsStatus => some s.lmsReg
  | .clkStatus => some s.clkReg
  | .clkFaultCause => some (keep s.clk.fault 7)
  | .pwrStatus => some s.pwrReg
  | .pwrStnStateLo => some (s.pwrStnReg 0)
  | .pwrStnStateHi => some (s.pwrStnReg 32)
  | .pwrRailFault => some (keep s.dep.rail 0xFFFF)
  | .pwrCageFault => some (keep s.panel.fault 0xFFFFF)
  | .crnStatus => some s.crnReg
  | .crnTime => some (field 32 24 s.dep.cycles + field 0 32 s.dep.hours)
  | .depStatus => some s.dep.withdrawn.toNat
  | .modCounter k => if k < 18 then some (ctrGet s.pwr.ctr k).toNat else none
  | _ => none

/-- The registers kept per Station. -/
def regOfStation : RegId → Bool
  | .stnFmtStatus | .stnArrStatus | .stnBspStatus | .accStatus | .recStatus | .stnStatus | .stnChkCtl | .stnConflictInfo => true
  | .stnCounter _ => true
  | _ => false

/-- What a register shows; none for an index that it has not. The registers of R526 are reached by TPERT_ACCESS only. -/
def State.regValue (s : State) (r : RegId) (ix : Nat) : Option Nat :=
  if regOfStation r then (if ix < 64 then s.stnReg r ix else none)
  else match r with
  | .stnTrkStatus => if ix < 4 then some (field 16 16 (tget 0 s.trk.last ix).toNat + field 0 13 (s.occupied ix)) else none
  | .trkCounter k => if ix < 4 ∧ k < 8 then some (ctrGet s.trk.ctr (ix * 16 + k)).toNat else none
  | .stnMemStackStatus => if ix < 36 then some (s.stackReg ix) else none
  | .memCounter k => if ix < 36 ∧ k < 8 then some (ctrGet s.mem.ctr (ix * 16 + k)).toNat else none
  | .stnGateStatus => if ix < 4 then some (keep (s.gate ix).status 0xFFFF0002 + field 8 8 (min 255 (s.gate ix).queue.length)
      + field 0 1 (b2n (s.gate ix).run.isSome)) else none
  | .gateCounter k => if ix < 4 ∧ k < 3 then some (ctrGet s.srvCtr (ix * 16 + k)).toNat else none
  | .trvLinkStatus => if ix < 18 then some (s.linkReg ix) else none
  | .trvCounter k =>
    if k < 5 then (if ix < 18 then some (ctrGet s.trv.ctr (ix * 16 + k)).toNat else none)
    else if ix = 0 ∧ k < 10 then some (ctrGet s.trv.ctr (18 * 16 + k)).toNat else none
  | .mbxStatus => if ix < 17 then some (s.boxReg ix) else none
  | .mbxCounter k => if ix < 17 ∧ k < 8 then some (ctrGet s.mboxCtr (ix * 16 + k)).toNat else none
  | .mbxParcelStatus => if ix < 16 then some (s.parcelReg ix) else none
  | r => if ix = 0 then s.modReg r else none

/-! ### The panel's lamps -/

/-- Whether LED_FAULT_N is driven low: any bit of DEP_STATUS or PWR_RAIL_FAULT is 1. -/
def State.ledFault (s : State) : Bool := s.dep.withdrawn != 0 || s.dep.rail != 0

/-- Whether LED_ACT_N is driven low: any Station is Running. -/
def State.ledAct (s : State) : Bool := (List.range 64).any fun n => s.spow n == .running

/-! ### Writes (R7) -/

/-- Writes a Station register: 1 clears a flag; STN_CHK_CTL takes its two bits. -/
def StCore.writeReg (c : StCore) (r : RegId) (v : BitVec 32) : StCore :=
  match r with
  | .stnFmtStatus => { c with fmtStatus := w1c c.fmtStatus 0x3F#32 v }
  | .stnArrStatus => { c with arrStatus := w1c c.arrStatus 0x40#32 v }
  | .stnBspStatus => { c with bspStatus := w1c c.bspStatus 0x1#32 v }
  | .accStatus => { c with accStatus := w1c c.accStatus 0x3#32 v }
  | .recStatus => { c with recStatus := w1c c.recStatus 0xB#32 v }
  | .stnStatus => { c with stnStatus := w1c c.stnStatus 0xE#32 v }
  | .stnChkCtl => { c with chkCtl := v &&& 3#32 }
  | _ => c

/-- Writes a register. A register of which the spec lets nothing be written stands; PWR_CAGE_FAULT and the registers of R526 are
written by commands of their own. -/
def State.writeReg (s : State) (r : RegId) (ix : Nat) (v : BitVec 64) : State :=
  let w : BitVec 32 := v.setWidth 32
  if regOfStation r then (if ix < 64 then s.modCore ix fun c => c.writeReg r w else s)
  else match r with
  | .stnMemStackStatus => if ix < 36 then s.modStack ix fun x => { x with status := w1c x.status 7#32 w } else s
  | .stnGateStatus => if ix < 4 then s.modGate ix fun g => { g with status := w1c g.status 2#32 w } else s
  | .trvLinkStatus => if ix < 18 then s.modLink ix fun l => { l with status := w1c l.status 0x70#64 v } else s
  | .trvPlanStatus => if ix = 0 then { s with trv := { s.trv with status := w1c s.trv.status 4#32 w } } else s
  | .mbxStatus => if ix < 17 then s.modBox ix fun b => { b with status := w1c b.status 0x20#32 w } else s
  | .clkFaultCause => if ix = 0 then { s with clk := { s.clk with fault := w1c s.clk.fault 7#32 w } } else s
  | .pwrRailFault => if ix = 0 then { s with dep := { s.dep with rail := w1c s.dep.rail 0xFFFF#32 w } } else s
  | .crnStatus => if ix = 0 ∧ w.getLsbD 1 then { s with cairn := { s.cairn with lost := false } } else s
  | _ => s

/-- REGISTER_WRITE (R7). -/
def execRegisterWrite (r : RegId) (ix : Nat) (v : BitVec 64) (s : State) : Host.Outcome State Fault Refusal :=
  .next (s.writeReg r ix v)

end Sys2Proof.Machine
end

