-- ==== Sys2Proof/Machine/ClockOps.lean ====
section
/-!
DEFINITION. The arithmetic divider and its limits (R479 to R481), the voltage trim (R482), the guard and the projection (R489), and the
Stations' wakes (R486, R487).
-/

namespace Sys2Proof.Machine

/-! ### The divider (R479 to R481) -/

/-- The largest limit. -/
def State.divLimit (s : State) : Nat :=
  let c := s.clk
  max (max (max c.margin c.proj) (max c.guard (if s.boostForbidden then 6 else 5))) (if c.supply then 6 else 5)

/-- Recomputes the divider in force and begins the switch to it. No switch begins during another, nor while the trim moves. -/
def State.retarget (s : State) : State :=
  let c := s.clk
  let d := s.divLimit
  if c.switch.isSome ∨ c.ramp.isSome ∨ d = c.div then s
  else { s with clk := { c with switch := some (c.div, d, false) } }.cairnEvent 0x0001 0 (natLe 1 c.div ++ natLe 1 d ++ natLe 1 c.cause)

/-- A limit changes: 0 margin, 1 configuration, 2 supply, 3 projection, 4 guard. -/
def State.limit (s : State) (cause : Nat) (f : Clk → Clk) : State := { s with clk := { f s.clk with cause := cause } }.retarget

/-- The trim begins to move to its target. -/
def State.rampTo (s : State) (v : Nat) : State := if s.clk.trim = v then s else { s with clk := { s.clk with ramp := some v } }

/-- The window counter of Facet `f` among four of 3 bits. -/
def facetCtr (ctr : BitVec 12) (f : Nat) : Nat := bits ctr.toNat (3 * f + 2) (3 * f)

/-- Step 2 of R480: the clock stops, and every Running Station freezes (R250). `ctr` holds the window counters of the Facets, whose windows
are cut short there: the cycles beyond the first k have been frozen (R249). -/
def dividerSwitchStop (ctr : BitVec 12) (s : State) : State :=
  match s.clk.switch with
  | some (o, n, false) =>
    let s := { s with clk := { s.clk with switch := some (o, n, true) } }
    let s := { s with clk := { s.clk with duty := (List.range 4).foldl (fun t f => fput t f (facetCtr ctr f)) s.clk.duty } }
    (List.range 64).foldl (fun s k => if s.spow k = .running then
      s.modCore k fun c => (c.count .frzDivsw).countDuty (facetCtr ctr (k / 16) - s.dutyOf (k / 16)) else s) s
  | _ => s

/-- Step 4 of R480: the new clock starts, with the window counters at 0 (R250). The divider is computed anew (R481), and a trim that was to follow moves (R482). -/
def dividerSwitchResume (s : State) : State :=
  match s.clk.switch with
  | some (_, n, true) =>
    let s := { s with clk := { s.clk with switch := none, div := n, duty := [] } }.modCount .divSwitches
    let s := s.retarget
    if s.clk.switch.isSome then s
    else match s.clk.trimNext with
      | some v => { s with clk := { s.clk with trimNext := none } }.rampTo v
      | none => s
  | _ => s

/-- The trim has reached its target (R482), and a divider that waited for it follows. -/
def trimRampComplete (s : State) : State :=
  match s.clk.ramp with
  | none => s
  | some v =>
    let old := s.clk.trim
    let s := { s with clk := { s.clk with trim := v, ramp := none } }
    (s.cairnEvent 0x0002 0 (natLe 1 (old / 5) ++ natLe 1 (v / 5))).retarget

/-- Margin re-planning sets its limit and the trim (R482, R516): a trim that rises for a faster divider moves first, else the divider
switches first. A change of the limit that changes no divider is recorded with the limit's old and new values. -/
def State.setMargin (s : State) (d v : Nat) : State :=
  let c := s.clk
  let s := { s with clk := { c with margin := d, cause := 0, trimNext := none } }
  let s := if c.margin ≠ d ∧ s.divLimit = c.div then s.cairnEvent 0x0001 0 (natLe 1 c.margin ++ natLe 1 d ++ natLe 1 0) else s
  if c.trim < v ∧ s.divLimit < c.div ∧ c.switch.isNone then s.rampTo v
  else
    let s := s.retarget
    if s.clk.switch.isSome then { s with clk := { s.clk with trimNext := some v } } else s.rampTo v

/-! ### The guard and the projection (R489) -/

/-- The mean of the newest `k` power samples, times their number, against a limit in W. -/
def meanOver (l : List Nat) (k limit : Nat) : Bool :=
  let x := l.take k
  decide (limit * x.length < x.sum)

/-- The guard raises its limit when the mean of 1 ms exceeds 2,300 W or that of 100 µs 2,400 W, at most once in 10 ms. -/
def State.guardRaise (s : State) : State :=
  let c := s.clk
  let rest : Bool := match c.raised with
    | some r => decide (s.aon < r + 130000)
    | none => false
  if rest ∨ 8 ≤ c.guard ∨ !(meanOver s.pwr.samples 1000 2300 || meanOver s.pwr.samples 100 2400) then s
  else
    let s := (s.modCount .guardRaises).cairnEvent 0x0003 0 (natLe 2 s.pwr.mean)
    s.limit 4 fun c => { c with guard := c.guard + 1, raised := some s.aon }

/-- A sample joins its millisecond, which begins at a multiple of 13,000 AON ticks (DESIGN CHOICE, log entry 127); the first sample of a later one closes
the one before, whose mean enters the Cairn (R11, R520). -/
def State.msSample (s : State) (watts : Nat) : State :=
  let p := s.pwr
  let w := s.aon / 13000
  if w = p.msWin then { s with pwr := { p with msSum := p.msSum + watts, msCnt := p.msCnt + 1 } }
  else
    let s := if p.msCnt = 0 then s
      else (s.cairnHist 0x0013 0xFFFF (Config.moduleEdges 0x0013) (lnsOfRatio p.msSum p.msCnt)).cairnExt 0x0013 0xFFFF (p.msSum / p.msCnt)
    { s with pwr := { s.pwr with msWin := w, msSum := watts, msCnt := 1 } }

/-- A sample joins its window of 1 s, which begins at a multiple of 13,000,000 AON ticks (R489; DESIGN CHOICE, log entry 76): the index,
sum and count of the two newest windows that have samples. -/
def secSample (secs : List (Nat × Nat × Nat)) (w watts : Nat) : List (Nat × Nat × Nat) :=
  match secs with
  | (k, sum, n) :: r => if k = w then (k, sum + watts, n + 1) :: r else (w, watts, 1) :: (k, sum, n) :: []
  | [] => [(w, watts, 1)]

/-- INPUT_POWER_SAMPLE (R489, R520): the guard acts on the newest 1 ms of samples. -/
def inputPowerSample (watts : Nat) (vin : BitVec 16) (t : Nat) (s : State) : State :=
  let s := s.tickTo t
  if !s.pwr.powered then s
  else
    let l := (watts :: s.pwr.samples).take 1000
    let s := { s with pwr := { s.pwr with samples := l, vin := vin } }
    let s := s.cairnExt 0x0012 0xFFFF vin.toNat
    let s := s.msSample watts
    let s := { s with pwr := { s.pwr with secs := secSample s.pwr.secs (s.aon / 13000000) watts } }
    let s := { s with clk := { s.clk with quiet := if meanOver l 1000 2060 then none else s.clk.quiet.orElse fun _ => some s.aon } }
    s.guardRaise

/-- GUARD_LOWER (R489): the mean has stayed at most 2,060 W for 10 ms; the next lowering waits as long again. -/
def guardLower (t : Nat) (s : State) : State :=
  let s := s.tickTo t
  match s.clk.quiet with
  | some q => if q + 130000 ≤ s.aon ∧ 5 < s.clk.guard then s.limit 4 fun c => { c with guard := c.guard - 1, quiet := some s.aon } else s
  | none => s

/-- The sum and the number of the power samples of the 1 s window `w`. -/
def Pwr.window (p : Pwr) (w : Nat) : Nat × Nat := ((p.secs.find? fun x => x.1 == w).map (·.2)).getD (0, 0)

/-- PROJECTION_WINDOW (R489): Grenlor acts once on the mean of the newest window of 1 s that has ended; `lower` says whether it lowers the
limit when it may. A window without a sample has no mean and changes nothing (log entry 76). -/
def projectionWindow (lower : Bool) (t : Nat) (s : State) : State :=
  let s := s.tickTo t
  let k := s.aon / 13000000
  if k ≤ s.clk.window.getD 0 then s
  else
    let w := s.pwr.window (k - 1)
    let s := { s with clk := { s.clk with window := some k } }
    if 2200 * w.2 < w.1 then (if s.clk.proj < 8 then s.limit 3 fun c => { c with proj := c.proj + 1 } else s)
    else if 0 < w.2 ∧ w.1 ≤ 2060 * w.2 ∧ s.clk.margin < s.clk.proj ∧ lower then s.limit 3 fun c => { c with proj := c.proj - 1 }
    else s

/-! ### Stations asleep and awake (R486, R487) -/

/-- A Station 100 µs in Ready without a task enters Parked. -/
def stationReadyTimeout (n t : Nat) (s : State) : State :=
  let s := s.tickTo t
  if s.spow n = .ready ∧ tget 0 s.pwr.since n + 1300 ≤ s.aon ∧ (s.stn n).mode = .idle ∧ !s.hasWork n then s.setSpow n .parked else s

/-- A wake ends: from Off the scratchpad has been written with zeros. The Station is Running when it has work, Ready when not, Parked
while ABORT lasts. -/
def stationWakeComplete (n t : Nat) (s : State) : State :=
  let s := s.tickTo t
  match s.pwr.waking.find? fun x => x.1 == n with
  | none => s
  | some (_, w) =>
    let s := { s with pwr := { s.pwr with waking := tdel s.pwr.waking n } }
    let s := if w = .off then (s.modStn n Station.scrubbed).modCount .wakesOff else s.modCount .wakesParked
    s.setSpow n (if s.pwr.supply = .abort then .parked else if s.hasWork n then .running else .ready)

/-! ### The meanings -/

def execPllLock (s : State) : Host.Outcome State Fault Refusal :=
  .next (if s.pwr.powered then { s with clk := { s.clk with pll := true, refOk := true }, pwr := { s.pwr with ok := true } } else s)
def execDividerSwitchStop (ctr : BitVec 12) (s : State) : Host.Outcome State Fault Refusal := .next (dividerSwitchStop ctr s)
def execDividerSwitchResume (s : State) : Host.Outcome State Fault Refusal := .next (dividerSwitchResume s)
def execTrimRampComplete (s : State) : Host.Outcome State Fault Refusal := .next (trimRampComplete s)
def execStationReadyTimeout (n : Stn) (t : Nat) (s : State) : Host.Outcome State Fault Refusal := .next (stationReadyTimeout n t s)
def execStationWakeComplete (n : Stn) (t : Nat) (s : State) : Host.Outcome State Fault Refusal := .next (stationWakeComplete n t s)
def execInputPowerSample (watts : Nat) (vin : BitVec 16) (t : Nat) (s : State) : Host.Outcome State Fault Refusal :=
  .next (inputPowerSample watts vin t s)
def execProjectionWindow (lower : Bool) (t : Nat) (s : State) : Host.Outcome State Fault Refusal :=
  .next (projectionWindow lower t s)
def execGuardLower (t : Nat) (s : State) : Host.Outcome State Fault Refusal := .next (guardLower t s)

end Sys2Proof.Machine
end

