-- ==== Sys2Proof/Machine/MboxOps.lean ====
section
/-!
DEFINITION. What the mailbox commands share: transport units and their permitted sources (R414, R415, R419), staging (R423), the checks
of a command (R424, R425), responses (R416, R417), and the Parcel reset (R432).
-/

namespace Sys2Proof.Machine

/-! ### Units (R414, R415) -/

/-- Header and payload of a unit as received. -/
def unitHead (u : MUnit) : List Byte :=
  natLe 2 u.magic.toNat ++ [u.ver, u.ukind, u.mbox, u.rsv5] ++ natLe 2 u.seq.toNat ++ natLe 2 u.code.toNat ++ natLe 2 u.len.toNat
    ++ natLe 4 u.tag.toNat ++ u.payload

/-- MBOX of a unit. -/
def unitBox (u : MUnit) : Nat := u.mbox.toNat % 32

/-- Check 1 of R415. -/
def unitWhole (u : MUnit) : Bool := u.magic == 0x584D#16 && u.ver == 1#8 && crc32c (unitHead u) == u.crc

/-- Check 3 of R415. -/
def unitLegal (u : MUnit) : Bool :=
  decide (1 ≤ u.ukind.toNat ∧ u.ukind.toNat ≤ 4 ∧ u.len.toNat ≤ 1024) && u.tlen == 20 + u.len.toNat && u.payload.length == u.len.toNat
    && u.mbox.toNat / 32 == 0 && u.rsv5 == 0

/-- IPv6 link-local addresses, fe80::/10. -/
def isLinkLocal (a : BitVec 128) : Bool := (a >>> 118).toNat == 0x3FA

/-- The maintenance prefixes of the configuration (R442). -/
def State.maintPrefixes (s : State) : List (BitVec 128 × Nat) :=
  (List.range 4).filterMap fun k => (s.cfg 0x0002 0xFF k).map fun b => (addrOf b, le b 16 1)

/-- Whether a source may reach a mailbox (R419). -/
def State.permitted (s : State) (m : Nat) (u : USource) : Bool :=
  match u.transport with
  | .mgmt =>
    if m = 16 then (if s.plan.force.gen = 0 then isLinkLocal u.addr else s.maintPrefixes.any fun p => prefixHas p u.addr)
    else m < 16 && (s.parcel m).mgmt.any fun p => prefixHas p u.addr
  | .i3c => m == 16
  | .traverse =>
    if m = 16 then u.parcel.isNone && (match s.trv.survey with
      | some v => v.mods.any fun x => x.1 == u.module.toNat
      | none => false)
    else m < 16 && (match u.parcel with
      | some q => (s.parcel m).peers.contains (u.module.toNat, q.val)
      | none => false)

/-! ### Staging (R423) -/

def stageSize (m : Nat) : Nat := if m = 16 then 2 ^ 25 else 2 ^ 22

def State.stageGet (s : State) (m off len : Nat) : List Byte :=
  let t := (s.box m).staging
  (List.range len).map fun i => tget 0 t (off + i)

/-- Puts bytes into a canonical table with default 0, from key `k` on. -/
def putBytes (t : Tab Byte) (k : Nat) : List Byte → Tab Byte
  | [] => t
  | b :: r => putBytes (mset 0 t k b) (k + 1) r

def State.stagePut (s : State) (m off : Nat) (bs : List Byte) : State :=
  s.modBox m fun b => { b with staging := putBytes b.staging off bs }

/-! ### The command set (R424) -/

/-- The mailboxes of an opcode: 0 both, 1 a Parcel's, 2 the maintenance mailbox. -/
def cmdWhere (op : Nat) : Option Nat :=
  if [0x0001, 0x0002, 0x0003, 0x0010, 0x0011, 0x0020, 0x0021, 0x0042, 0x0070, 0x0071, 0x0080, 0x00C1].contains op then some 0
  else if [0x0030, 0x0031, 0x0040, 0x0041, 0x0043, 0x0044, 0x0050, 0x0051, 0x0052, 0x0053, 0x0060].contains op then some 1
  else if [0x0081, 0x0090, 0x0091, 0x00A0, 0x00A1, 0x00A2, 0x00A3, 0x00B0, 0x00C0, 0x00C2].contains op then some 2
  else none

/-- A REG_READ's register and index. -/
def regNamed (b : List Byte) : Option RegId :=
  Config.regOf (BitVec.ofNat 8 (le b 0 1)) (BitVec.ofNat 16 (le b 2 2)) (BitVec.ofNat 32 (le b 4 4))

/-- Check 2 of R425: what mailbox m may not ask for. An opcode of Parcel mailboxes on the maintenance mailbox is refused in the
same way, which the rule does not state. -/
def State.noPrivilege (s : State) (m op : Nat) (b : List Byte) : Bool :=
  (cmdWhere op == some 2 && decide (m < 16)) || (cmdWhere op == some 1 && m == 16)
    || (decide (m < 16) && !b.isEmpty &&
      ((op == 0x0020 && decide (le b 0 1 < 16) && le b 0 1 != m)
        || (op == 0x0021 && (le b 0 1 % 16 != m || bits (le b 0 1) 4 4 == 1))
        || (op == 0x0080 && (match regNamed b with
            | some r => !(regOfStation r && decide (le b 2 2 < 64) && (s.stationSet m).getLsbD (le b 2 2))
            | none => false))))

/-- Whether a field holds a Range page, or a Range address. -/
def pageField (n : Nat) : Bool := decide (n < 2 ^ 23)
def addrField (n : Nat) : Bool := decide (n < 2 ^ 44)

/-- Check 3 of R425: LEN, ranges and reserved fields. -/
def State.argsOk (s : State) (op : Nat) (b : List Byte) : Bool :=
  let n := b.length
  match op with
  | 0x0001 => n == 0
  | 0x0002 => true
  | 0x0003 => decide (24 ≤ n) && decide (le b 0 2 < 4096 ∧ le b 2 1 ≤ 16) && le b 3 1 == 0 && n == 24 + le b 14 2
      && !(le b 7 1 == 1 && le b 12 2 == 0x0003)
  | 0x0010 => decide (5 ≤ n ∧ n ≤ 1024)
  | 0x0011 => n == 6 && decide (1 ≤ le b 4 2 ∧ le b 4 2 ≤ 1024)
  | 0x0020 => n == 1 && decide (le b 0 1 < 16)
  | 0x0021 => n == 1 && decide (le b 0 1 < 32)
  | 0x0030 => n == 12 && addrField (le b 4 8)
  | 0x0031 => n == 4
  | 0x0040 => n == 10 && pageField (le b 0 4) && decide (le b 8 1 ≤ 1) && decide (le b 9 1 < if le b 8 1 = 0 then 4 else 16)
  | 0x0041 => n == 8 && pageField (le b 0 4)
  | 0x0042 => n == 4 && pageField (le b 0 4)
  | 0x0043 => n == 16 && addrField (le b 0 8) && le b 0 8 % 64 == 0 && le b 12 4 % 64 == 0
  | 0x0044 => n == 10 && addrField (le b 0 8) && decide (64 ≤ le b 8 2 ∧ le b 8 2 ≤ 1024) && le b 8 2 % 64 == 0
  | 0x0050 => n == 10 && decide (le b 0 2 ≤ 63 ∧ 1 ≤ le b 2 4 ∧ le b 2 4 ≤ 262144)
  | 0x0051 => n == 10 && decide (le b 0 2 ≤ 15)
  | 0x0052 => n == 6 && decide (le b 0 2 < 4096)
  | 0x0053 => n == 24 && decide (le b 0 1 < 64 ∧ le b 1 1 < 4 ∧ le b 10 2 < 4096 ∧ le b 12 1 < 16) && pageField (le b 2 4)
      && zeros b 13 3 && addrField (le b 16 8)
  | 0x0060 => n == 24 && zeros b 6 2
  | 0x0070 => n == 6 && parcelCodes.contains (le b 0 2) && decide (le b 2 1 < 64 ∧ 1 ≤ le b 3 1)
  | 0x0071 => n == 34 && decide (le b 0 1 ≤ 3) && zeros b 1 15
  | 0x0080 => n == 8 && le b 1 1 == 0 && (match regNamed b with
      | some r => (s.regValue r (le b 2 2)).isSome
      | none => false)
  | 0x0081 => n == 3 && decide (1 ≤ le b 2 1 ∧ le b 2 1 ≤ 8)
  | 0x0090 => n == 12 && decide (le b 0 1 ≤ 2) && zeros b 1 3
  | 0x0091 => n == 1 && decide (le b 0 1 ≤ 3)
  | 0x00A0 => n == 12 && decide (le b 0 1 < 16 ∧ le b 1 1 < 16) && zeros b 2 2 && pageField (le b 4 4)
  | 0x00A1 => n == 12 && zeros b 2 2 && pageField (le b 4 4)
  | 0x00A2 => n == 12 && zeros b 2 2 && pageField (le b 4 4)
  | 0x00A3 => n == 8 && pageField (le b 0 4)
  | 0x00B0 => n == 16 && decide (le b 4 1 ≤ 1) && zeros b 5 3
  | 0x00C0 => n == 8
  | 0x00C1 => n == 48
  | 0x00C2 => n == 8 && decide (le b 0 1 ≤ 1) && zeros b 1 3
  | _ => true

/-- The end of the staging bytes that a command names. -/
def stageEnd (op : Nat) (b : List Byte) : Nat :=
  match op with
  | 0x0010 => le b 0 4 + (b.length - 4)
  | 0x0011 => le b 0 4 + le b 4 2
  | 0x0043 => le b 8 4 + le b 12 4
  | 0x0050 => le b 6 4 + ceilDiv (le b 2 4) 8
  | 0x0051 => le b 2 4 + le b 6 4
  | 0x0052 => le b 2 4 + 4104
  | 0x0090 => le b 4 4 + le b 8 4
  | 0x00A3 => le b 4 4 + 2 ^ 21
  | 0x00C0 => le b 0 4 + le b 4 4
  | 0x00C2 => if le b 0 1 = 1 then le b 4 4 + 3124 else 0
  | _ => 0

/-- Check 5 of R425 and R434: a Parcel's own mailbox, and a command of the maintenance mailbox that acts on the Parcel. PARCEL_RESET
and PARCEL_INFO there are answered whatever the state. -/
def State.resettingFor (s : State) (m op : Nat) (b : List Byte) : Bool :=
  if m < 16 then (s.parcel m).st == .resetting else op == 0x00A0 && (s.parcel (le b 0 1)).st == .resetting

/-- The ROM in recovery (R468). -/
def State.inRecovery (s : State) : Bool := s.sec.recover.isSome

/-- Checks 1 to 5 of R425, with the limits of recovery (R468) and of an open debug port (R473). -/
def State.cmdCheck (s : State) (m op : Nat) (b : List Byte) : Option Status :=
  if cmdWhere op = none ∨ (s.inRecovery ∧ !([0x0001, 0x0002, 0x0010, 0x00C0].contains op)) then some 0x01B1#16
  else if s.sec.open' ∧ !([0x0001, 0x0002, 0x0080, 0x0081, 0x00B0].contains op) then some 0x0666#16
  else if s.noPrivilege m op b then some 0x0640#16
  else if !s.argsOk op b then some 0x01B2#16
  else if stageSize m < stageEnd op b then some 0x01B4#16
  else if s.resettingFor m op b then some 0x0231#16
  else none

/-! ### Responses (R416, R417) -/

/-- What a command comes to: its response, or none while it keeps it. -/
abbrev Reply := State × Option (Status × List Byte)

def State.no (s : State) (st : Status) : Reply := (s, some (st, []))
def State.yes (s : State) (pay : List Byte) : Reply := (s, some (0, pay))
def State.later (s : State) : Reply := (s, none)

/-- The statuses that R474 allocates. -/
def secCodes : List Status :=
  [0x01D0#16, 0x01D1#16, 0x02D0#16, 0x02D1#16, 0x03D0#16, 0x0660#16, 0x0661#16, 0x0662#16, 0x0663#16, 0x0664#16, 0x0665#16, 0x0666#16]

/-- What registers and counters show of a response (R451, R475, R476). -/
def State.noteStatus (s : State) (op : Nat) (st : Status) : State :=
  let s := if op = 0x0090 ∨ op = 0x0091 then { s with plan := { s.plan with last := st } } else s
  let s := if secCodes.contains st then { s with sec := { s.sec with last := st } } else s
  if op = 0x00C1 ∧ [0x0421#16, 0x02D1#16, 0x0665#16, 0x0666#16].contains st then s.modCount .attestRefused else s

/-- Sends a response, with SEQ and TAG of its command, to the command's source (R417). -/
def State.answer (s : State) (m : Nat) (u : MUnit) (st : Status) (pay : List Byte) : State :=
  s.sendUnit u.source 2 m u.seq st u.tag pay

/-- Ends the command that executes: its response is sent and cached (R416). -/
def State.respond (s : State) (m : Nat) (u : MUnit) (st : Status) (pay : List Byte) : State :=
  let s := (s.noteStatus u.code.toNat st).answer m u st pay
  s.modBox m fun b =>
    { b with wait := if b.wait = some u then none else b.wait,
             cache := ({ seq := u.seq, code := st, tag := u.tag, pay := pay }
               :: b.cache.filter fun r => r.seq != u.seq).take 64 }

/-! ### The Parcel reset (R432) -/

/-- The tasks of a Parcel are freed or killed, without records and tokens; its pending tokens are discarded and counted (R281). -/
def State.freeTasks (s : State) (p : Nat) : State :=
  let ks := (tkeys s.trk.table).filter fun k =>
    (s.entry (k / 4096) (k % 4096)).st != .free && (s.entry (k / 4096) (k % 4096)).desc.parcel == p
      && (s.entry (k / 4096) (k % 4096)).desc.kind != 5
  let s := ks.foldl (fun s k =>
    let e := s.entry (k / 4096) (k % 4096)
    let s := match e.stn with
      | some n => s.killStation n
      | none => s
    s.setEntry (k / 4096) (k % 4096) .free) s
  let mine (f : Nat) (t : Nat × BitVec 64 × Nat) : Bool := t.1 == f && bits t.2.1.toNat 39 36 == p
  let s := (List.range 4).foldl (fun s f => s.trkCount f .stale (s.trk.pending.countP (mine f))) s
  let s := { s with trk := { s.trk with pending := s.trk.pending.filter fun t => bits t.2.1.toNat 39 36 != p } }
  s.modParcel p fun q => { q with insts := [] }

/-- Gate jobs, waiting units and arbiter credits of a Parcel go (R432, R396). -/
def State.dropUnits (s : State) (p : Nat) : State :=
  let s := (List.range 4).foldl (fun s f => s.modGate f fun g =>
    { g with queue := g.queue.filter (fun j => j.kat || j.parcel != p), arb := g.arb.drop (p + 1),
             run := match g.run with
               | some (j, c) => if !j.kat && j.parcel == p then none else some (j, c)
               | none => none }) s
  let s := (List.range 18).foldl (fun s k => s.modPort k fun x =>
    { x with queue := x.queue.filter (fun e => e.parcel != some p || e.kind == 0x21 || e.kind == 0x22), arb := x.arb.drop (p + 1) }) s
  (s.parcel p).peers.foldl (fun s d => s.trvOut 0x09 0 d.1 d.2 p 0 0 (dropPay 0x0538#16 0 0)) s

/-- The slots of a Parcel's Stations and the save areas that hold its image are zero-filled; the counters of R71 are cleared. -/
def State.clearSlots (s : State) (p : Nat) : State :=
  let s := { s with dep := { s.dep with samples := s.dep.samples.filter fun x => !(s.parcel p).stations.getLsbD x.1 } }
  (List.range 64).foldl (fun s n => s.modStn n fun x =>
    let mine := (s.parcel p).stations.getLsbD n
    let save := match x.saveArea with
      | some (q, _) => q == p
      | none => false
    let x := if save then { x with saveArea := none } else x
    let x := if x.owner = some p then { x with owner := none, cache := [] } else x
    if mine then { x with core := { x.core with slots := if x.core.task.kat then x.core.slots else [], ctr := [] } } else x) s

/-- The moves of a Parcel are abandoned (R317): the destination is zeroed, or a Tier W write under way ends first. -/
def State.dropMoves (s : State) (p : Nat) : State :=
  (s.mem.moves.filter fun m => m.parcel == p).foldl (fun s m => (if m.started then s.abandonMove m else s).dropMove m) s

/-- The pages of a Parcel at its reset: D pages and working copies go; homes are kept, or with PURGE erased; its bit leaves every
SHAREMASK; a shared page that it loaded goes with PURGE once no Parcel maps it. Its mapping generation rises, and its entries leave every
cache (R548). -/
def State.resetPages (s : State) (p : Nat) (purge : Bool) : State :=
  let s := s.invalidateParcel p
  let us := s.mem.unmaps.filter fun u => u.2.1 == p
  let s := { s with mem := { s.mem with unmaps := s.mem.unmaps.filter fun u => u.2.1 != p,
                                        unmapWait := s.mem.unmapWait.filter fun w => w.1 != p,
                                        mgen := fput s.mem.mgen p (tget 0 s.mem.mgen p + 1) } }
  (tkeys s.mem.pages).foldl (fun s g =>
    let e := s.page g
    if !e.valid then s
    else if e.cls = .wShared then
      let held := s.mem.unmaps.any fun u => u.1 == g
      let e' := { e with share := e.share &&& ~~~ (1#16 <<< p),
                         st := if e.st = .unmapPending ∧ us.any (fun u => u.1 == g) ∧ !held then .resident else e.st }
      let s := if e' = e then s else s.setPage g e'
      if purge ∧ e.owner = p ∧ e'.share = (0#16) then s.dropPage g else s
    else if e.owner ≠ p then s
    else if e.cls = .d ∨ purge ∨ e.st = .unmapPending then s.dropPage g
    else s.dropCopy g) s

/-- The registered objects of a Parcel and its staging area are cleared. -/
def State.clearObjects (s : State) (p : Nat) : State :=
  let s := s.modParcel p fun q => { q with recipes := [], masks := [], grammars := [], books := [], windows := [] }
  let s := { s with trv := { s.trv with kvIn := s.trv.kvIn.filter fun k => k.dparcel != p } }
  s.modBox p fun b => { b with staging := [] }

/-- Commands that keep their response and are given up when their Parcel is reset (R434). -/
def givenUp : List Nat := [0x0040, 0x0041, 0x0043, 0x0060]

/-- Begins a reset of a Parcel (R432): every step begins at once. -/
def State.startReset (s : State) (p : Nat) (r : PReset) : State :=
  let s := s.modParcel p fun q => { q with st := .resetting }
  let s := s.modBox p fun b => { b with pendN := [] }
  let s := match (s.box p).wait with
    | some u => if givenUp.contains u.code.toNat then s.respond p u 0x0231#16 [] else s
    | none => s
  let s := s.freeTasks p
  let s := (tkeys s.reqs).foldl (fun s k => if (s.req k).parcel = p then s.requestEnd k 0x07A0#16 else s) s
  let s := (((s.dropUnits p).clearSlots p).dropMoves p).resetPages p r.purge
  let s := s.clearObjects p
  let es := (s.mem.wjobs.filter fun j => (r.purge && j.why == .erase) || j.why == .abandoned).map fun j => frameKey j.stack j.frame
  { s with presets := fput s.presets p { r with erases := es } }

end Sys2Proof.Machine
end

