-- ==== Sys2Proof/Machine/MailboxCmds.lean ====
section
/-!
DEFINITION. The commands of a mailbox that act on its Parcel, its memory and its notifications (R424, R425, R429 to R432). Each is given
its mailbox and its unit, whose checks 1 to 5 hold.
-/

namespace Sys2Proof.Machine

/-! ### Sessions, staging and Parcels -/

/-- SYNC (R416, R418): binds the source. The number of the module reads 0xFFFF while no Survey Plan is in force. -/
def cmdSync (m : Nat) (u : MUnit) (s : State) : Reply :=
  let s := s.modBox m fun b => { b with bound := some u.source }
  s.yes (natLe 2 (s.box m).nseq.toNat ++ natLe 2 s.modNum)

/-- ECHO. -/
def cmdEcho (_ : Nat) (u : MUnit) (s : State) : Reply := s.yes u.payload

/-- What a relayed unit's response is known by: its module, SEQ and TAG. -/
def relayKey (module seq tag : Nat) : Nat := module * 2 ^ 48 + seq * 2 ^ 32 + tag

/-- RELAY (R422). -/
def cmdRelay (m : Nat) (u : MUnit) (s : State) : Reply :=
  if u.source.transport = .traverse then s.no 0x01B2#16
  else
  let b := u.payload
  let md := le b 0 2
  let box := le b 2 1
  let s := s.trvOut 0x05 0 md (if box < 16 then box else 0) (if m < 16 then m else 0) s.trvTag 0 (b.drop 4)
  let s := { s with trvTag := (s.trvTag + 1) % 2 ^ 32 }
  (s.modBox m fun x => { x with relay := some (relayKey md (le b 10 2) (le b 16 4), s.aon) }).later

/-- STAGE_WRITE (R423). -/
def cmdStageWrite (m : Nat) (u : MUnit) (s : State) : Reply := (s.stagePut m (le u.payload 0 4) (u.payload.drop 4)).yes []

/-- STAGE_READ (R423). -/
def cmdStageRead (m : Nat) (u : MUnit) (s : State) : Reply := s.yes (s.stageGet m (le u.payload 0 4) (le u.payload 4 2))

/-- The pages that a Parcel holds in a tier. -/
def State.heldPages (s : State) (p tier stack : Nat) : Nat :=
  (s.mem.pages.map fun x => x.2.counts p tier stack).sum + (if tier = 0 then (s.parcel p).objectPages p stack else 0)

/-- Pages of a Parcel in a tier, and its quota there. -/
def State.heldPair (s : State) (p tier stack : Nat) : List Byte :=
  natLe 4 (s.heldPages p tier stack) ++ natLe 4 ((s.parcel p).quota tier stack)

/-- PARCEL_INFO. -/
def cmdParcelInfo (_ : Nat) (u : MUnit) (s : State) : Reply :=
  let p := le u.payload 0 1
  let q := s.parcel p
  s.yes (natLe 1 q.st.num ++ natLe 1 (tget 0 s.mem.mgen p).toNat ++ natLe 6 0
    ++ natLe 4 ((List.range 4).map (s.heldPages p 0)).sum ++ natLe 4 ((List.range 4).map fun f => q.quota 0 f).sum
    ++ s.heldPair p 1 0 ++ s.heldPair p 2 0 ++ (List.range 4).flatMap fun f => s.heldPair p 0 f)

/-- The homes of a Parcel are erased when PURGE joins a reset in progress (R434). -/
def State.addPurge (s : State) (p : Nat) : State :=
  let s := (tkeys s.mem.pages).foldl (fun s g =>
    let e := s.page g
    if e.valid ∧ e.owner = p ∧ (e.cls = .wPrivate ∨ (e.cls = .wShared ∧ e.share = 0)) then s.dropPage g else s) s
  let r := tget { purge := true, byM := true, units := [], erases := [], forPlan := false } s.presets p
  let es := (s.mem.wjobs.filter fun j => j.why == .erase).map fun j => frameKey j.stack j.frame
  { s with presets := fput s.presets p { r with purge := true, erases := r.erases ++ es } }

/-- PARCEL_RESET (R432, R434). A reset of a Parcel that is not declared is refused as an argument out of range. -/
def cmdParcelReset (m : Nat) (u : MUnit) (s : State) : Reply :=
  let p := le u.payload 0 1 % 16
  let purge := bits (le u.payload 0 1) 4 4 == 1
  match (s.parcel p).st with
  | .absent => s.no 0x01B2#16
  | .resetting =>
    if m = 16 ∧ purge then
      let s := s.addPurge p
      let r := tget { purge := true, byM := true, units := [], erases := [], forPlan := false } s.presets p
      ({ s with presets := fput s.presets p { r with byM := true, units := r.units ++ [(m, u)] } }).later
    else s.no 0x0231#16
  | .active => (s.startReset p { purge := purge, byM := m == 16, units := [(m, u)], erases := [], forPlan := false }).later

/-! ### Recipes -/

/-- Whether a Parcel is a serving Parcel (R410). -/
def Parcel.serving (q : Parcel) : Bool := !q.recipes.isEmpty

/-- Whether a Parcel holds the resource that a perturbation names (R525, R526). -/
def Parcel.holds (q : Parcel) (kind ix : Nat) : Bool :=
  match kind with
  | 1 => q.stations.getLsbD (ix / 16)
  | 2 => q.stations.getLsbD ix
  | 3 => if ix < 4 then q.quotaN.getD ix 0 != 0 else if ix < 20 then q.quotaH != 0 else q.quotaW != 0
  | 4 => true
  | 6 => q.quotaW != 0
  | _ => false

/-- A Parcel that begins to serve takes its resources from under every perturbation (R525). -/
def State.startServing (s : State) (p : Nat) : State :=
  s.disarmWhere fun x => (s.parcel p).holds (bits x.target.toNat 23 16) (bits x.target.toNat 15 0)

def stationCount (v : BitVec 64) : Nat := ((List.range 64).filter fun k => v.getLsbD k).length

/-- RECIPE_BIND (R345, R346, R347, R412, R425). -/
def cmdRecipeBind (m : Nat) (u : MUnit) (s : State) : Reply :=
  let q := s.parcel m
  let num := le u.payload 0 4
  if stationCount q.stations < 4 ∨ q.quotaH < 40960 then s.no 0x0294#16
  else if 16 ≤ q.recipes.length then s.no 0x02B3#16
  else match s.recipeAt m num (le u.payload 4 8) with
    | .error st => s.no st
    | .ok r =>
      let s := if q.serving then s else s.startServing m
      (s.modParcel m fun q => { q with recipes := q.recipes.filter (fun x => x.1 != num) ++ [(num, r)] }).yes []

/-- RECIPE_UNBIND. -/
def cmdRecipeUnbind (m : Nat) (u : MUnit) (s : State) : Reply :=
  let num := le u.payload 0 4
  if (s.recipe m num).isNone then s.no 0x0191#16
  else if s.reqs.any fun x => x.2.live && x.2.parcel == m && x.2.blk.recipe == num then s.no 0x02B2#16
  else (s.modParcel m fun q => { q with recipes := q.recipes.filter fun x => x.1 != num }).yes []

/-! ### Pages -/

/-- The pages of a run. -/
def runPages (r n : Nat) : List Nat := (List.range n).map fun i => r + i

/-- Whether a run reaches the window or the system region. -/
def runHigh (r n : Nat) : Bool := decide (0xE * 2 ^ 19 < r + n)

def newPage (p tier stack f : Nat) : PageEntry :=
  { PageEntry.none with valid := true, cls := .d, st := .resident, loc := tier, lstack := stack, lframe := f, owner := p }

/-- Maps D pages to zeroed frames of a stack; none while such frames are wanting. -/
def State.mapPages (s : State) (p tier stack : Nat) : List Nat → Option State
  | [] => some s
  | g :: r =>
    let x := s.pickFrame (stackNum tier stack)
    match x.2 with
    | none => none
    | some f => State.mapPages (x.1.setPage g (newPage p tier stack f)) p tier stack r

/-- PAGE_ALLOC: the response waits for zeroed frames. -/
def cmdPageAlloc (m : Nat) (u : MUnit) (s : State) : Reply :=
  let b := u.payload
  let r := le b 0 4
  let n := le b 4 4
  let tier := le b 8 1
  let k := le b 9 1
  if runHigh r n ∨ s.mem.pages.any (fun x => x.2.valid && decide (r ≤ x.1 ∧ x.1 < r + n)) then s.no 0x01B6#16
  else if (s.parcel m).quota tier k < s.usage m tier k (2 ^ 23) + n then s.no 0x02B3#16
  else match s.mapPages m tier k (runPages r n) with
    | some s => s.yes []
    | none => s.later

/-- PAGE_FREE (R297): D and W-private pages of the Parcel. -/
def cmdPageFree (m : Nat) (u : MUnit) (s : State) : Reply :=
  let r := le u.payload 0 4
  let n := le u.payload 4 4
  let ok (g : Nat) : Bool :=
    let e := s.page g
    e.valid && e.owner == m && e.cls != .wShared && e.st != .unmapPending
  if runHigh r n ∨ !(runPages r n).all ok then s.no 0x01B6#16
  else
    let wait := s.genBlocked m
    let s := s.unmap m (runPages r n) true
    if wait then s.later else s.yes []

def PClass.num : PClass → Nat
  | .d => 0
  | .wPrivate => 1
  | .wShared => 2

def PState.num : PState → Nat
  | .resident => 0
  | .moving => 1
  | .programming => 2
  | .poisoned => 3
  | .restoring => 4
  | .zeroing => 5
  | .unmapPending => 6

/-- The 16 bytes of a page entry (R295). -/
def PageEntry.bytes (e : PageEntry) : List Byte :=
  natLe 8 (field 63 1 (b2n e.valid) + field 61 2 e.cls.num + field 58 3 e.st.num + field 56 2 e.loc + field 52 4 e.lstack
      + field 35 17 e.lframe + field 31 4 e.owner + field 30 1 (b2n e.mirrored))
    ++ natLe 8 (if e.cls = .d then 0
        else field 48 16 e.share.toNat + field 44 4 e.hstack + field 27 17 e.hframe + field 23 4 (if e.mirrored then e.mstack else 0)
          + field 6 17 (if e.mirrored then e.mframe else 0))

/-- PAGE_ENTRY (R295): on a Parcel mailbox, of a page that is mapped to the Parcel. -/
def cmdPageEntry (m : Nat) (u : MUnit) (s : State) : Reply :=
  let g := le u.payload 0 4
  if runHigh g 1 ∨ (m < 16 ∧ !s.mayRead m g) then s.no 0x01B6#16 else s.yes (s.page g).bytes

/-- Writes bytes to the Range; a sector that is written whole is no longer poisoned (R319). -/
def State.store (s : State) (a : Nat) (bs : List Byte) : State :=
  let ks := (List.range (bs.length / 64)).map fun i => s.phys (a + 64 * i) / 64
  let s := s.rput a bs
  { s with mem := { s.mem with poison := s.mem.poison.filter fun k => !ks.contains k } }

/-- DATA_IN: into D pages of the Parcel. A page that moves is written after its flip (R317). -/
def cmdDataIn (m : Nat) (u : MUnit) (s : State) : Reply :=
  let b := u.payload
  let a := le b 0 8
  let n := le b 12 4
  let gs := pagesOf a n
  if gs.any fun g => decide (0xE ≤ g / 2 ^ 19) || (s.pageCheck true m g).isSome then s.no 0x01B6#16
  else match gs.findSome? s.stackRefuses with
    | some st => s.no st
    | none =>
      if gs.any fun g => (s.page g).st == .moving then s.later
      else (gs.foldl State.noteRead (s.store a (s.stageGet m (le b 8 4) n))).yes []

/-- DATA_OUT: from pages that the Parcel may read (R296). -/
def cmdDataOut (m : Nat) (u : MUnit) (s : State) : Reply :=
  let a := le u.payload 0 8
  let n := le u.payload 8 2
  let gs := pagesOf a n
  if gs.any fun g => decide (0xE ≤ g / 2 ^ 19) || !s.mayRead m g then s.no 0x01B6#16
  else match gs.findSome? s.stackRefuses with
    | some st => s.no st
    | none =>
      match gs.find? fun g => (s.page g).bad with
      | some g => s.no (if (s.page g).cls = .wPrivate then 0x0382#16 else 0x0381#16)
      | none =>
        if (s.poisonAt a n).isSome then s.no 0x0380#16 else (gs.foldl State.noteRead s).yes (s.rbytes a n)

/-! ### Registered objects -/

/-- Loads an object into a Parcel's Tier N, if the quotas hold it (R424, R425). -/
def State.loadObject (s : State) (m : Nat) (f : Parcel → Parcel) : Reply :=
  let s' := s.modParcel m f
  if (List.range 4).any fun k => decide ((s'.parcel m).quota 0 k < s'.usage m 0 k (2 ^ 23)
      ∧ s.usage m 0 k (2 ^ 23) < s'.usage m 0 k (2 ^ 23)) then s.no 0x02B3#16
  else s'.yes []

/-- MASK_LOAD (R357). -/
def cmdMaskLoad (m : Nat) (u : MUnit) (s : State) : Reply :=
  let b := u.payload
  let bs := s.stageGet m (le b 6 4) (ceilDiv (le b 2 4) 8)
  s.loadObject m fun q => { q with masks := fput q.masks (le b 0 2) bs }

/-- GRAMMAR_LOAD (R357). -/
def cmdGrammarLoad (m : Nat) (u : MUnit) (s : State) : Reply :=
  let b := u.payload
  let bs := s.stageGet m (le b 2 4) (le b 6 4)
  if gramOk bs then s.loadObject m fun q => { q with grammars := fput q.grammars (le b 0 2) bs } else s.no 0x0197#16

/-- Whether a compressed block of a set's slot lies in the KV of a live request or in a shipping queue (R354). -/
def State.bookInUse (s : State) (p set slot : Nat) : Bool :=
  s.reqs.any fun x => x.2.live && x.2.parcel == p && x.2.kvGens.contains (set, slot)

/-- CODEBOOK_LOAD (R351, R354): writes the slot in the area of every bound recipe that has the set. -/
def cmdCodebookLoad (m : Nat) (u : MUnit) (s : State) : Reply :=
  let b := u.payload
  let set := le b 0 2
  let q := s.parcel m
  let rs := q.recipes.filter fun r => decide (set < r.2.ncbset)
  let g := match q.newest set with
    | some k => k + 1
    | none => 0
  let bs := s.stageGet m (le b 2 4) 4104
  if rs.isEmpty ∨ !zeros bs 4097 7 then s.no 0x01B2#16
  else if 4 ≤ g ∧ s.bookInUse m set (g % 4) then s.no 0x0293#16
  else
    let s := rs.foldl (fun s r => s.rput (r.2.bookAddr set (g % 4)) bs) s
    (s.modParcel m fun q => { q with books := fput q.books set g }).yes (natLe 1 g)

/-- WINDOW_SET (R383). -/
def cmdWindowSet (m : Nat) (u : MUnit) (s : State) : Reply :=
  let b := u.payload
  let i := le b 0 1
  let w : Window := { base := le b 2 4, pages := le b 6 4, module := le b 10 2, parcel := le b 12 1, rbase := le b 16 8, perm := le b 1 1 }
  let q := s.parcel m
  if w.pages = 0 then (s.modParcel m fun q => { q with windows := tdel q.windows i }).yes []
  else if w.base < 0xE * 2 ^ 19 ∨ 0xF * 2 ^ 19 < w.base + w.pages
      ∨ q.windows.any (fun x => x.1 != i && decide (w.base < x.2.base + x.2.pages ∧ x.2.base < w.base + w.pages)) then s.no 0x01B7#16
  else if !q.peers.contains (w.module, w.parcel) then s.no 0x0630#16
  else (s.modParcel m fun q => { q with windows := fput q.windows i w }).yes []

/-- GRAPH_RUN (R347, R425, R444): the response waits for tracker entries. -/
def cmdGraphRun (m : Nat) (u : MUnit) (s : State) : Reply :=
  let b := u.payload
  match s.recipe m (le b 0 4) with
  | none => s.no 0x0191#16
  | some r =>
    match r.graphs.find? fun g => g.graph == le b 4 2 && g.gkind == 2 with
    | none => s.no 0x019A#16
    | some g =>
      if s.plan.mode ≠ 2 ∧ (s.template g).any fun d => d.kind == 4 then s.no 0x02C1#16
      else if s.argBusy m (le b 0 4) (s.serialFor m none) g then s.no 0x0295#16
      else match s.instantiate m (le b 0 4) g 0 0 none ((b.drop 8).take 16) with
        | some x => x.1.yes (natLe 4 x.2)
        | none => s.later

/-! ### Notifications, registers and the Cairn -/

/-- NOTIFY_CONFIG (R429). -/
def cmdNotifyConfig (m : Nat) (u : MUnit) (s : State) : Reply :=
  let b := u.payload
  let v := le b 2 1
  (s.modBox m fun x => { x with vecOf := fput x.vecOf (le b 0 2) v, cthresh := fput x.cthresh v (le b 3 1),
                                ctime := fput x.ctime v (le b 4 2) }).yes []

/-- DOORBELL_SET (R431). -/
def cmdDoorbellSet (m : Nat) (u : MUnit) (s : State) : Reply :=
  let b := u.payload
  (s.modBox m fun x => { x with net := le b 0 1, bellAddr := addrOf (b.drop 16), bellUdp := BitVec.ofNat 16 (le b 32 2) }).yes []

/-- REG_READ. -/
def cmdRegRead (_ : Nat) (u : MUnit) (s : State) : Reply :=
  let b := u.payload
  match (regNamed b).bind fun r => s.regValue r (le b 2 2) with
  | some v => s.yes (natLe 8 v)
  | none => s.no 0x01B2#16

/-- CAIRN_READ (R524). -/
def cmdCairnRead (_ : Nat) (u : MUnit) (s : State) : Reply :=
  let b := u.payload
  s.yes ((List.range (le b 2 1)).flatMap fun k => tget (List.replicate 128 0xFF#8) s.cairn.slots ((le b 0 2 + k) % 8192))

/-! ### Shared pages (R298, R306, R320, R321) -/

/-- Programs the mirror of a W-private page. -/
def State.publish (s : State) (k : Nat) (g : Nat) : Option State :=
  let e := s.page g
  let r := s.pickFrame (20 + k)
  match r.2 with
  | none => none
  | some f =>
    let x := frameKey (20 + e.hstack) e.hframe
    some (r.1.addJob (progJob (20 + k) f g .mirror x (tagFor g e true (tget .erased s.mem.tags x).pgen)))

def State.publishAll (s : State) (k : Nat) : List Nat → Option State
  | [] => some s
  | g :: r => (s.publish k g).bind fun s => State.publishAll s k r

/-- SHARE_PUBLISH: the pages become W-shared as their mirrors' tags are written. -/
def cmdSharePublish (_ : Nat) (u : MUnit) (s : State) : Reply :=
  let b := u.payload
  let p := le b 0 1
  let k := le b 1 1
  let gs := runPages (le b 4 4) (le b 8 4)
  let ok (g : Nat) : Bool :=
    let e := s.page g
    e.valid && e.owner == p && e.cls == .wPrivate && e.st == .resident && !(s.mem.wjobs.any fun j => j.rpage == g && j.why == .mirror)
  if runHigh (le b 4 4) (le b 8 4) ∨ !gs.all ok then s.no 0x01B6#16
  else if gs.any fun g => (s.page g).hstack == k then s.no 0x01B2#16
  else if (s.parcel p).quotaW < s.usage p 2 0 (2 ^ 23) + gs.length then s.no 0x02B3#16
  else match (if (s.stack (20 + k)).status.getLsbD 4 then s.publishAll k gs else none) with
    | some s => s.yes []
    | none => s.no 0x0281#16

/-- Whether a run holds W-shared pages only. -/
def State.allShared (s : State) (r n : Nat) : Bool :=
  !runHigh r n && (runPages r n).all fun g => (s.page g).valid && (s.page g).cls == .wShared

/-- SHARE_GRANT. -/
def cmdShareGrant (_ : Nat) (u : MUnit) (s : State) : Reply :=
  let b := u.payload
  let mask := BitVec.ofNat 16 (le b 0 2)
  if !s.allShared (le b 4 4) (le b 8 4) then s.no 0x01B6#16
  else
    ((runPages (le b 4 4) (le b 8 4)).foldl (fun s g => s.setPage g { s.page g with share := (s.page g).share ||| mask }) s).yes []

/-- SHARE_REVOKE (R297): one unmap for each Parcel whose bits it clears; the response waits while a generation may not rise. -/
def cmdShareRevoke (_ : Nat) (u : MUnit) (s : State) : Reply :=
  let b := u.payload
  let gs := runPages (le b 4 4) (le b 8 4)
  if !s.allShared (le b 4 4) (le b 8 4) then s.no 0x01B6#16
  else
    let s := (List.range 16).foldl (fun s p =>
      let mine := gs.filter fun g => (s.page g).share.getLsbD p
      if (le b 0 2).testBit p ∧ !mine.isEmpty then s.unmap p mine false else s) s
    if s.mem.unmapWait.any fun w => !w.2.2 then s.later else s.yes []

/-- PAGE_RELOAD (R321): the bytes are programmed as the page's new home, and its mirror after it. -/
def cmdPageReload (m : Nat) (u : MUnit) (s : State) : Reply :=
  let g := le u.payload 0 4
  let e := s.page g
  if runHigh g 1 ∨ !e.valid ∨ e.cls ≠ .wShared ∨ !s.mem.lost.contains g ∨ e.st = .restoring then s.no 0x01B6#16
  else
    let k := 20 + e.hstack
    let r := s.pickFrame k
    match (if (s.stack k).status.getLsbD 4 then r.2 else none) with
    | none => s.no 0x0281#16
    | some f =>
      let x := frameKey k f
      let s := { r.1 with mem := r.1.mem.puts (physKey k f 0) (s.stageGet m (le u.payload 4 4) (2 ^ 21)) }
      ((s.setPage g { e with st := .restoring }).addJob (progJob k f g .reload x (tagFor g e true 0))).yes []

end Sys2Proof.Machine
end

