-- ==== Sys2Proof/Machine/NvOps.lean ====
section
/-!
DEFINITION. Non-volatile writes (R454, R494): the configuration flash, the key store, the LMS counter and the fuses, each one write at a
time, and the writing of the Cairn (R518, R523).
-/

namespace Sys2Proof.Machine

def State.modSec (s : State) (f : Sec → Sec) : State := { s with sec := f s.sec }

/-! ### The configuration flash -/

/-- The first job starts its next erase or page program, if it may. An image is no longer valid from its first erase on. -/
def State.startFlash (s : State) : State :=
  match s.sec.flash with
  | [] => s
  | j :: r =>
    if j.busy ∨ !s.nv then s
    else
      s.modSec fun x =>
        { x with flash := { j with busy := true } :: r, image := if j.why.isImage then { x.image with valid := false } else x.image }

def State.addFlash (s : State) (j : FlashJob) : State := (s.modSec fun x => { x with flash := x.flash ++ [j] }).startFlash

/-- The erases and programs of an object of `n` bytes. -/
def flashOps (n : Nat) : Nat := ceilDiv n 4096 + ceilDiv n 256

/-! ### The Cairn's region (R518, R523) -/

/-- The 128 bytes of a record. -/
def CRec.bytes (r : CRec) (before : Bool) : List Byte :=
  let fl := r.flags ||| b2n (r.hLast == 0xFFFFFFFF) ||| 2 * b2n (r.cFirst == 0xFFFFFF) ||| 16 * b2n before
  let b := natLe 1 r.kind ++ natLe 1 fl ++ natLe 2 r.source ++ natLe 2 r.scope ++ natLe 2 r.rpt ++ natLe 4 r.rseq ++ natLe 4 r.hFirst
    ++ natLe 3 r.cFirst ++ natLe 1 0 ++ natLe 4 r.hLast ++ fit 0 100 r.body
  b ++ natLe 4 (crc32c b).toNat

/-- Writes a record into the next slot. -/
def State.writeRecord (s : State) (r : CRec) : State :=
  let c := s.cairn
  let n := (c.next + 1) % 8192
  ({ s with cairn := { c with buf := c.buf.erase r, slots := fput c.slots c.next (r.bytes c.before), next := n, before := false,
                              wrapped := c.wrapped || n == 0 } }).modCount .recordsWritten

/-- Erases the sector of the next slot. -/
def State.eraseSector (s : State) : State :=
  let n := s.cairn.next
  ({ s with cairn := { s.cairn with slots := s.cairn.slots.filter fun x => x.1 / 32 != n / 32 } }).modCount .sectorsErased

/-- The closed records begin to be written, two to a page, unless they already are. -/
def State.flushCairn (s : State) : State :=
  let n := min (if s.cairn.next % 2 = 0 then 2 else 1) (s.cairn.buf.countP (·.closed))
  let going := s.sec.flash.any fun j => match j.why with
    | .cairn _ => true
    | _ => false
  if n = 0 ∨ going then s
  else s.addFlash { why := .cairn n, left := if s.cairn.next % 32 = 0 then 2 else 1, busy := false, mbox := 16, unit := none }

/-- The program of a page of `n` records has ended. -/
def State.cairnWritten (s : State) (n : Nat) : State :=
  (((s.cairn.buf.filter (·.closed)).take n).foldl State.writeRecord s).flushCairn

/-- CAIRN_FLUSH (R523). -/
def cairnFlush (t : Nat) (s : State) : State :=
  let s := s.tickTo t
  if s.sec.boot = 7 then s.flushCairn else s

/-! ### The key store (R454) -/

/-- The first key-store write starts, if it may. -/
def State.startKey (s : State) : State :=
  if s.sec.keyBusy ∨ s.sec.keyQ = [] ∨ !s.nv then s else s.modSec fun x => { x with keyBusy := true }

def State.addKey (s : State) (w : KeyWhy) (m : Nat) (u : Option MUnit) : State :=
  (s.modSec fun x => { x with keyQ := x.keyQ ++ [(w, m, u)] }).startKey

/-! ### Fuses (R454, R460, R472) -/

/-- The next fuse blows, if it may: a DBG fuse that an opening waits for, else an SVN fuse of an advance. -/
def State.startFuse (s : State) : State :=
  let x := s.sec
  if x.fuseBusy.isSome ∨ !s.nv then s
  else match x.dbgStep, x.fuseTo with
    | some (_, 1), _ => s.modSec fun x => { x with fuseBusy := some true }
    | _, some v => if x.svn < v then s.modSec fun x => { x with fuseBusy := some false } else s
    | _, none => s

/-! ### The LMS counter (R465) -/

/-- The counter write of the first report that waits for it starts, if it may. -/
def State.startLms (s : State) : State :=
  if s.sec.lmsBusy ∨ !s.nv ∨ s.sec.attests.all (·.done) then s else s.modSec fun x => { x with lmsBusy := true }

/-- All that waited on the sag rule starts (R494). -/
def State.startNv (s : State) : State :=
  ((List.range 16).foldl (fun s k => s.startW (20 + k)) s).startFlash.startKey.startFuse.startLms

def execCairnFlush (t : Nat) (s : State) : Host.Outcome State Fault Refusal := .next (cairnFlush t s)

end Sys2Proof.Machine
end

