-- ==== Sys2Proof/Machine/PlanCheck.lean ====
section
/-!
DEFINITION. The checks of Base Plans, Overlays and Survey Plans (R385 to R387, R409 to R412, R439 to R445).
-/

namespace Sys2Proof.Machine

/-! ### The wrapper (R439, R440, R445 checks 1 to 4) -/

def bodyLen (b : List Byte) : Nat := le b 8 4
def wrapBody (b : List Byte) : List Byte := (b.drop 64).take (bodyLen b)
def planGen (b : List Byte) : Nat := le b 12 4
def planBase (b : List Byte) : Nat := le b 16 4
def planMode (b : List Byte) : Nat := le b 7 1 % 4

/-- The limit of BODYLEN by KIND. -/
def bodyMax (kind : Nat) : Nat := if kind = 0 then 262144 else if kind = 1 then 16384 else 8388608

/-- Check 1, with R440. -/
def wrapFormat (kind : Nat) (b : List Byte) : Bool :=
  le b 0 4 == 0x58504C4E && le b 4 1 == kind && le b 5 1 == 1 && decide (le b 6 1 ≤ 1)
    && (if kind = 1 then decide (le b 7 1 < 4) else le b 7 1 == 0 && planBase b == 0)
    && bodyLen b % 8 == 0 && decide (bodyLen b ≤ bodyMax kind) && zeros b 20 44 && b.length == 64 + bodyLen b + 3060
    && (kind != 2 || (planGen b == le b 68 2))

/-- The message that both signatures cover, and the signatures. -/
def signed (n : Nat) (b : List Byte) : List Byte × List Byte × List Byte := (b.take n, (b.drop n).take 96, (b.drop (n + 96)).take 2964)

/-- The ECDSA and HSS keys of an operator key slot; empty where the slot is. -/
def State.slotKeys (s : State) (role : Nat) : List Byte × List Byte :=
  let k := tget .empty s.sec.slots role
  (k.ecdsa, k.hss)

def factoryKeys : List Byte × List Byte := (Config.factoryEcdsaKey, Config.factoryHssKey)

/-- Whether both signatures verify under a pair of keys. -/
def bothOk (ks : List Byte × List Byte) (x : List Byte × List Byte × List Byte) : Bool :=
  Config.ecdsaOk ks.1 x.1 x.2.1 && Config.hssOk ks.2 x.1 x.2.2

/-- Whether a slot holds keys. -/
def State.enrolled (s : State) (role : Nat) : Bool := (tget .empty s.sec.slots role).enrol != 0

/-- Checks 1 to 4 of R445. -/
def State.wrapCheck (s : State) (kind : Nat) (b : List Byte) : Option Status :=
  if !wrapFormat kind b then some 0x01C0#16
  else if le b 6 1 = 1 ∧ !s.enrolled 0 then some 0x0652#16
  else
    let ks := if le b 6 1 = 0 then factoryKeys else s.slotKeys 0
    let x := signed (64 + bodyLen b) b
    if !Config.ecdsaOk ks.1 x.1 x.2.1 then some 0x0650#16 else if !Config.hssOk ks.2 x.1 x.2.2 then some 0x0651#16 else none

/-! ### Parameter entries (R441, R442) -/

/-- The entries of a body; none when it is not a sequence of entries. -/
def entriesOf (b : List Byte) : Nat → Option (List PEntry)
  | 0 => none
  | n + 1 =>
    if b = [] then some []
    else
      let len := le b 4 2
      let w := 8 + ceilDiv len 8 * 8
      if b.length < w ∨ !zeros b 6 2 ∨ !zeros b (8 + len) (w - 8 - len) then none
      else
        (entriesOf (b.drop w) n).map fun r =>
          { pid := le b 0 2, scope := le b 2 1, sub := le b 3 1, value := (b.drop 8).take len } :: r

def PEntry.key (e : PEntry) : Nat := e.pid * 65536 + e.scope * 256 + e.sub

/-- Strictly ascending. -/
def rising : List Nat → Bool
  | a :: b :: r => decide (a < b) && rising (b :: r)
  | _ => true

/-- Whether a SUB of P_SHARE names an arbiter (R443). -/
def arbiterOk (sub : Nat) : Bool :=
  decide (sub % 32 < [16, 16, 16, 26, 18, 4, 2].getD (sub / 32) 0)

/-- A module and a Parcel of P_DECODE_TARGET and P_PEER. -/
def pairOk (b : List Byte) : Bool := bits (le b 0 4) 15 12 == 0 && bits (le b 0 4) 31 20 == 0

/-- The number of instances of a parameter, the bytes of its value, and whether a value is in range; none for an unknown PID. Whether it
is scoped to a Parcel is bit 4 of its PID. -/
def paramRule (e : PEntry) : Option (Nat × Nat × Bool) :=
  let v := e.value
  match e.pid with
  | 0x0001 => some (1, 1, decide (le v 0 1 ≤ 3))
  | 0x0002 => some (4, 17, decide (le v 16 1 ≤ 128))
  | 0x0003 => some (1, 18, decide (1 ≤ le v 16 2))
  | 0x0004 => some (2, 16, true)
  | 0x0005 => some (2, 2, decide (1500 ≤ le v 0 2 ∧ le v 0 2 ≤ 9000))
  | 0x0006 => some (1, 1, decide (le v 0 1 ≤ 1))
  | 0x0007 => some (1, 2, decide (le v 0 1 ≤ 20 ∧ 30 ≤ le v 1 1 ∧ le v 1 1 ≤ 63))
  | 0x0008 => some (4, 4, true)
  | 0x0009 => some (16, 4, true)
  | 0x0010 => some (1, 8, true)
  | 0x0011 => some (4, 4, decide (le v 0 4 ≤ 16256))
  | 0x0012 => some (1, 4, decide (le v 0 4 ≤ 524288))
  | 0x0013 => some (1, 4, decide (le v 0 4 ≤ 1572864))
  | 0x0014 => some (256, 2, arbiterOk e.sub && decide (le v 0 1 ≤ (shareOf (some v)).2))
  | 0x0015 => some (1, 2, decide (1 ≤ le v 0 2))
  | 0x0016 => some (16, 17, decide (le v 16 1 ≤ 128))
  | 0x0017 => some (1, 1, decide (le v 0 1 ≤ 2))
  | 0x0018 => some (16, 4, pairOk v)
  | 0x0019 => some (64, 4, pairOk v)
  | 0x001A => some (4, 17, decide (le v 16 1 ≤ 128))
  | _ => none

/-- Check 6 of R445 for one entry. -/
def PEntry.ok (e : PEntry) : Bool := match paramRule e with
  | some (n, len, r) =>
    (if e.pid / 16 = 0 then e.scope == 0xFF else decide (e.scope < 16)) && decide (e.sub < n) && e.value.length == len && r
  | none => false

/-- Whether an Overlay may give a parameter. -/
def overlayPid (pid : Nat) : Bool := [0x0006, 0x0010, 0x0011, 0x0012, 0x0013, 0x0014, 0x0017, 0x0018].contains pid

/-! ### The resulting configuration (R409 to R411) -/

/-- A 4-byte parameter, 0 where none is given. -/
def num4 (b : PlanObj) (o : Option PlanObj) (pid scope sub : Nat) : Nat := match paramUnder b o pid scope sub with
  | some v => le v 0 4
  | none => 0

/-- The Stations that a configuration gives a Parcel; none when it does not declare it. -/
def stationsUnder (b : PlanObj) (o : Option PlanObj) (p : Nat) : Option (BitVec 64) :=
  (paramUnder b o 0x0010 p 0).map fun v => BitVec.ofNat 64 (le v 0 8)

def declared (b : PlanObj) (o : Option PlanObj) : List Nat := (List.range 16).filter fun p => (stationsUnder b o p).isSome

/-- The minimum share of index 0 at an arbiter (R408, R409). -/
def zeroShare (transit sub : Nat) : Nat :=
  if sub / 32 ≤ 3 then 16 else if sub / 32 = 4 then transit else if sub / 32 = 6 then 4 else 0

/-- The minimum shares at an arbiter, index 0 among them. -/
def shareSum (b : PlanObj) (o : Option PlanObj) (transit sub : Nat) : Nat :=
  zeroShare transit sub + ((declared b o).map fun p => (shareOf (paramUnder b o 0x0014 p sub)).1).sum

def sharesOk (b : PlanObj) (o : Option PlanObj) (transit : Nat) : Bool :=
  ((List.range 224).filter arbiterOk).all fun sub => decide (shareSum b o transit sub ≤ 256)

/-- Whether every declared Parcel has a Station, and no two share one. -/
def stationsOk (b : PlanObj) (o : Option PlanObj) : Bool :=
  let ms := (List.range 16).filterMap fun p => stationsUnder b o p
  ms.all (fun m => m != 0) && (List.range 64).all fun n => decide (ms.countP (fun m => m.getLsbD n) ≤ 1)

/-- Whether the quotas and the shared working areas fit each tier. -/
def quotasOk (b : PlanObj) (o : Option PlanObj) : Bool :=
  let ps := declared b o
  let all (pid sub : Nat) : Nat := (ps.map fun p => num4 b o pid p sub).sum
  (List.range 4).all (fun f => decide (all 0x0011 f + num4 b o 0x0008 0xFF f ≤ 16256))
    && decide (all 0x0012 0 + ((List.range 16).map fun k => num4 b o 0x0009 0xFF k).sum ≤ 524288)
    && decide (all 0x0013 0 ≤ 1572864)

/-- Check 8 of R445. -/
def configOk (b : PlanObj) (o : Option PlanObj) (transit : Nat) : Bool := sharesOk b o transit && stationsOk b o && quotasOk b o

/-- TRANSIT of the Survey Plan in force; 0 while none is (R409). -/
def State.transit (s : State) : Nat := match s.trv.survey with
  | some v => v.transit
  | none => 0

/-- Checks 5 to 8 of R445 for a Base Plan or an Overlay. -/
def State.planCheck (s : State) (kind : Nat) (b : List Byte) : Except Status PlanObj :=
  let old := if kind = 0 then some s.plan.force else (s.plan.overlays.find? fun x => x.1 == planMode b).map (·.2)
  if (match old with
      | some o => decide (planGen b ≤ o.gen)
      | none => false) then .error 0x0653#16
  else match entriesOf (wrapBody b) (bodyLen b / 8 + 1) with
    | none => .error 0x01C1#16
    | some es =>
      let p : PlanObj := { gen := planGen b, baseGen := planBase b, entries := es, bytes := b }
      if !rising (es.map PEntry.key) ∨ !es.all PEntry.ok then .error 0x01C1#16
      else if kind = 1 ∧ es.any fun e => !overlayPid e.pid then .error 0x01C2#16
      else if kind = 1 ∧ planBase b ≠ s.plan.force.gen then .error 0x01C3#16
      else if !(if kind = 1 then configOk s.plan.force (some p) s.transit else configOk p none s.transit) then .error 0x01B5#16
      else .ok p

/-! ### Survey Plans (R385, R386) -/

/-- The group records of a body, with whether all their fields are in range; the records end where fewer than 16 bytes are left. -/
def groupsOf (b : List Byte) : Nat → Option (List SGroup × Bool)
  | 0 => if zeros b 0 b.length && decide (b.length < 8) then some ([], true) else none
  | n + 1 =>
    let k := le b 2 1
    let m := le b 4 2
    let w := if k = 2 then 4 else 2
    if b.length < 16 + m * w then none
    else
      let e := b.drop 16
      let g : SGroup :=
        { group := le b 0 2, kind := k, budget := le b 8 4,
          mems := (List.range m).map fun i => (le e (w * i) 2, if k = 2 then le e (w * i + 2) 2 else 0) }
      (groupsOf (b.drop (16 + m * w)) n).map fun r =>
        (g :: r.1, r.2 && decide (k ≤ 2 ∧ 2 ≤ m ∧ m ≤ 4096) && zeros b 3 1 && zeros b 6 2 && zeros b 12 4)

/-- A Survey Plan from its body, with whether every field is in range and every reserved field 0. -/
def surveyOf (bytes b : List Byte) : Option (Survey × Bool) :=
  let nm := le b 6 2
  let nl := le b 8 4
  let np := le b 12 2
  let ng := le b 14 2
  let lo := 64 + 16 * nm
  let po := lo + 8 * nl
  let go := po + 8 * np
  if b.length < go then none
  else
    let word (o i : Nat) : Nat := le b (o + 8 * i) 8
    let okHead := decide (2 ≤ nm ∧ nm ≤ 4096 ∧ ng ≤ 256 ∧ 1 ≤ le b 16 2 ∧ le b 16 2 ≤ 4095 ∧ 1 ≤ le b 18 1) && zeros b 19 45
    let okMods := (List.range nm).all fun i => decide (le b (64 + 16 * i) 2 < 4096) && zeros b (66 + 16 * i) 6
    let okLinks := (List.range nl).all fun i =>
      let w := word lo i
      decide (bits w 51 47 ≤ 17 ∧ bits w 34 30 ≤ 17 ∧ 1 ≤ bits w 28 19 ∧ bits w 28 19 ≤ 1000) && bits w 18 0 == 0
    let okPorts := (List.range np).all fun i => decide (bits (word po i) 51 47 ≤ 17) && bits (word po i) 28 0 == 0
    (groupsOf (b.drop go) ng).map fun g =>
      ({ planId := le b 0 4, planGen := le b 4 2,
         mods := (List.range nm).map fun i => (le b (64 + 16 * i) 2, BitVec.ofNat 64 (le b (72 + 16 * i) 8)),
         links := (List.range nl).map fun i =>
           let w := word lo i
           { modA := bits w 63 52, linkA := bits w 51 47, modB := bits w 46 35, linkB := bits w 34 30, line := bits w 29 29 == 1,
             len := bits w 28 19 },
         ports := (List.range np).map fun i =>
           let w := word po i
           { module := bits w 63 52, port := bits w 51 47, members := bits w 46 29 },
         groups := g.1, hopMax := le b 16 2, transit := le b 18 1, bytes := bytes },
       okHead && okMods && okLinks && okPorts && g.2)

/-- No entry stands twice. -/
def noRepeat (l : List Nat) : Bool := l.eraseDups.length == l.length

/-- The ends of the links, as 32 × module + link. -/
def Survey.ends (v : Survey) : List Nat := v.links.flatMap fun l => [32 * l.modA + l.linkA, 32 * l.modB + l.linkB]

def Survey.hasMod (v : Survey) (m : Nat) : Bool := v.mods.any fun x => x.1 == m

/-- The links of a port. -/
def SPort.list (p : SPort) : List Nat := (List.range 18).filter fun k => p.has k

/-- Whether all members of a port join one port of one peer module, and that port's members this one. -/
def Survey.portOk (v : Survey) (p : SPort) : Bool :=
  let far := p.list.map fun k => (v.linkAt p.module k).map fun l => l.peer p.module k
  match far with
  | [] => false
  | none :: _ => false
  | some q :: _ =>
    match (v.portsOf q.1).find? fun y => y.has q.2 with
    | none => false
    | some y => far.all (fun x => x.any fun z => z.1 == q.1 && y.has z.2) && y.list.length == p.list.length

/-- A tree has one root, and from each member the parents lead to it. -/
def climbs (ms : List (Nat × Nat)) (i : Nat) : Nat → Bool
  | 0 => false
  | n + 1 =>
    let p := (ms.getD i (0, 0)).2
    p == 0xFFFF || (decide (p < ms.length) && climbs ms p n)

def SGroup.ok (v : Survey) (g : SGroup) : Bool :=
  g.mems.all (fun m => v.hasMod m.1)
    && (g.kind != 2 || (g.mems.countP (fun m => m.2 == 0xFFFF) == 1
      && (List.range g.mems.length).all fun i => climbs g.mems i (g.mems.length + 1)))

/-- Check 2 of R386, beyond the fields. Two port records of one number at one module are refused with it. -/
def Survey.formOk (v : Survey) : Bool :=
  noRepeat (v.mods.map (·.1)) && v.links.all (fun l => v.hasMod l.modA && v.hasMod l.modB) && noRepeat v.ends
    && noRepeat (v.ports.map fun p => 32 * p.module + p.port)
    && v.ends.all (fun e => (v.portsOf (e / 32)).countP (fun p => p.has (e % 32)) == 1)
    && v.ports.all v.portOk && v.groups.all (SGroup.ok v)

/-- Joins the classes of two modules; none when they are one already. -/
def joinClass (t : Tab Nat) (a b : Nat) : Option (Tab Nat) :=
  let x := tget a t a
  let y := tget b t b
  if x = y then none else some (fput (fput (t.map fun e => (e.1, if e.2 = y then x else e.2)) a x) b x)

/-- Check 3: the ports that are no datelines form no cycle of modules. -/
def Survey.linesOk (v : Survey) : Bool :=
  let es := v.ports.filterMap fun p => (v.peerPort p.module p.port).bind fun q =>
    if 32 * p.module + p.port < 32 * q.1 + q.2 ∧ !v.dateline p.module p.port then some (p.module, q.1) else none
  (es.foldl (fun t e => t.bind fun t => joinClass t e.1 e.2) (some [])).isSome

/-- The number of this module in a plan. -/
def Survey.self (v : Survey) : Option Nat := (v.mods.find? fun m => m.2 == Config.devId).map (·.1)

/-- Check 6. -/
def State.transitOk (s : State) (v : Survey) : Bool :=
  (List.range 18).all fun p => decide (shareSum s.plan.force s.plan.ovl v.transit (128 + p) ≤ 256)

/-- Checks 5 of R445 and 2 to 6 of R386. -/
def State.surveyCheck (s : State) (b : List Byte) : Except Status Survey :=
  if (match s.trv.survey with
      | some o => decide (planGen b ≤ o.planGen)
      | none => false) then .error 0x0653#16
  else match surveyOf b (wrapBody b) with
    | none => .error 0x01A0#16
    | some (v, ok) =>
      if !ok ∨ !v.formOk then .error 0x01A0#16
      else if !v.linesOk then .error 0x01A1#16
      else if v.self.isNone then .error 0x0536#16
      else if !v.groups.all fun g => v.groupOk (v.edges []) g then .error 0x0535#16
      else if !s.transitOk v then .error 0x01B5#16
      else .ok v

end Sys2Proof.Machine
end

