-- ==== Sys2Proof/Machine/Plans.lean ====
section
/-!
DEFINITION. Loading and applying a configuration (R444 to R449), and taking a Survey Plan (R386, R388).
-/

namespace Sys2Proof.Machine

/-! ### Measurements (R463) -/

def bytes48 (d : BitVec 384) : List Byte := (List.range 48).map fun i => (d >>> (8 * (47 - i))).setWidth 8

/-- Extends a measurement register with a digest. -/
def State.measure (s : State) (i : Nat) (d : List Byte) : State :=
  s.modSec fun x => { x with m := fput x.m i (Config.sha384 (bytes48 (tget 0 x.m i) ++ d)) }

/-- The digest of an object, or 48 zero bytes for none. -/
def digestOr (o : Option PlanObj) : List Byte := match o with
  | some p => bytes48 (Config.sha384 p.bytes)
  | none => List.replicate 48 0

/-- The digest of both operator key slots. -/
def slotDigest (s : State) : List Byte :=
  let k (r : Nat) : List Byte :=
    let x := tget .empty s.sec.slots r
    if x.enrol = 0 then List.replicate 157 0 else x.ecdsa ++ x.hss
  bytes48 (Config.sha384 (k 0 ++ k 1))

/-! ### Parcels of a configuration (R413, R442, R449) -/

/-- A Parcel with the values that a configuration gives it. -/
def parcelFrom (b : PlanObj) (o : Option PlanObj) (p : Nat) (q : Parcel) : Parcel :=
  let get (pid sub : Nat) : Option (List Byte) := paramUnder b o pid p sub
  let pre (pid n : Nat) : List (BitVec 128 × Nat) := (List.range n).filterMap fun k => (get pid k).map fun v => (addrOf v, le v 16 1)
  let pair (pid n : Nat) : List (Nat × Nat) :=
    (List.range n).filterMap fun k => (get pid k).map fun v => (bits (le v 0 4) 11 0, bits (le v 0 4) 19 16)
  { q with
    stations := (stationsUnder b o p).getD 0, quotaN := (List.range 4).map fun f => num4 b o 0x0011 p f, quotaH := num4 b o 0x0012 p 0,
    quotaW := num4 b o 0x0013 p 0, udp := ((get 0x0015 0).map fun v => le v 0 2).getD 0, prefixes := pre 0x0016 16,
    mgmt := pre 0x001A 4, role := ((get 0x0017 0).map fun v => le v 0 1).getD 2, targets := pair 0x0018 16, peers := pair 0x0019 64 }

/-- Whether a configuration changes a Parcel's Stations or quotas, or no longer declares it. -/
def State.changes (s : State) (b : PlanObj) (o : Option PlanObj) (p : Nat) : Bool :=
  let q := s.parcel p
  let n := parcelFrom b o p q
  (stationsUnder b o p).isNone || n.stations != q.stations || n.quotaN != q.quotaN || n.quotaH != q.quotaH || n.quotaW != q.quotaW

/-- Loads a Parcel: a new one is ACTIVE with a new session (R61, R413). -/
def State.loadParcel (s : State) (b : PlanObj) (o : Option PlanObj) (p : Nat) : State :=
  if (stationsUnder b o p).isNone then s.modParcel p fun _ => .absent
  else if (s.parcel p).st = .absent then
    let r := s.drawNonce
    r.1.modParcel p fun _ => { parcelFrom b o p .absent with st := .active, nonce := r.2 }
  else s.modParcel p (parcelFrom b o p)

/-- A Station after the switch: one that a Parcel acquires wakes from Off, one that no Parcel holds enters Off (R487); the counters of
a Station that is reassigned are cleared (R71). -/
def State.reassign (s : State) (old : Option Nat) (n : Nat) : State :=
  let new := s.holder n
  if new = old then s
  else
    let s := s.modCore n fun c => { c with ctr := [] }
    let s := { s with dep := { s.dep with samples := tdel s.dep.samples n } }
    if new.isSome then s.wake n
    else if (s.stn n).mode = .idle then
      { s with pwr := { s.pwr with waking := tdel s.pwr.waking n } }.setSpow n .off
    else s

/-- The check mode of R253 that a mode fixes (R444); it takes effect on a Station at its next task start. -/
def StCore.modeCheck (c : StCore) (mode : Nat) : StCore :=
  { c with chkCtl := if mode = 3 then 3#32 else c.chkCtl &&& ~~~ 1#32 }

/-- Every value of a configuration takes effect in one control cycle. -/
def State.loadConfig (s : State) (b : PlanObj) (mode : Nat) (o : Option PlanObj) : State :=
  let held := (List.range 64).map s.holder
  let boost := s.boostForbidden
  let s := { s with plan := { s.plan with force := b, mode := mode, ovl := o } }
  let s := (List.range 16).foldl (fun s p => s.loadParcel b o p) s
  let s := (List.range 64).foldl (fun s n => (s.reassign (held.getD n none) n).modCore n fun c => c.modeCheck mode) s
  let s := if s.boostForbidden = boost then s else s.limit 1 id
  s.measure 3 (digestOr o)

/-! ### The apply sequence (R447, R448) -/

/-- The Overlay of a mode that belongs to a Base Plan. -/
def Plan.overlayFor (p : Plan) (b : PlanObj) (mode : Nat) : Option PlanObj :=
  ((p.overlays.find? fun x => x.1 == mode).map (·.2)).bind fun o => if o.baseGen = b.gen then some o else none

/-- The configuration that an apply leads to. -/
def Plan.target (p : Plan) (a : Apply) : PlanObj × Option PlanObj :=
  let b := a.base.getD p.force
  (b, p.overlayFor b a.mode)

/-- The command of an apply is answered. -/
def State.endApply (s : State) (a : Apply) (st : Status) : State :=
  let s := { s with plan := { s.plan with apply := none } }
  match a.unit with
  | some u => s.respond 16 u st []
  | none => s

/-- Step 4 of R448, and the response. -/
def State.switchTo (s : State) (a : Apply) : State :=
  let c := s.plan.target a
  let s := s.loadConfig c.1 a.mode c.2
  let s := match a.base with
    | some b =>
      let s := { s with plan := { s.plan with stored := none } }
      (s.measure 2 (bytes48 (Config.sha384 b.bytes))).cairnEvent 0x0032 0 (natLe 1 0 ++ natLe 4 b.gen)
    | none => s
  s.endApply a 0

/-- Whether a reset of a Parcel runs. -/
def State.anyResetting (s : State) : Bool := (List.range 16).any fun p => (s.parcel p).st == .resetting

/-- Steps 2 to 4 of R448: at a quiescent point the resets begin; when they have completed, the switch follows. -/
def State.applyStep (s : State) : State :=
  match s.plan.apply with
  | none => s
  | some a =>
    if s.anyResetting then s
    else if a.resets then s.switchTo a
    else if s.trv.cl.event.isSome ∨ s.trv.cl.running then s
    else
      let c := s.plan.target a
      let ps := (List.range 16).filter fun p => (s.parcel p).st == .active && s.changes c.1 c.2 p
      let a' := { a with resets := true }
      let s := { s with plan := { s.plan with apply := some a' } }
      if ps = [] then s.switchTo a'
      else ps.foldl (fun s p => s.startReset p { purge := false, byM := false, units := [], erases := [], forPlan := true }) s

/-- QUIESCENT_SWITCH (R448). -/
def quiescentSwitch (t : Nat) (s : State) : State := (s.tickTo t).applyStep

/-- APPLY_QUIESCE_TIMEOUT (R448): 2 ms have passed without a quiescent point. -/
def applyQuiesceTimeout (t : Nat) (s : State) : State :=
  let s := s.tickTo t
  match s.plan.apply with
  | none => s
  | some a => if a.resets ∨ s.aon < a.from' + 26000 then s else s.endApply a 0x07C0#16

/-- Begins an apply: the check of step 1, then the wait for a quiescent point. -/
def State.beginApply (s : State) (mode : Nat) (base : Option PlanObj) (u : MUnit) : Reply :=
  let a : Apply := { mode := mode, from' := s.aon, unit := some u, resets := false, base := base }
  let c := s.plan.target a
  if configOk c.1 c.2 s.transit then ({ s with plan := { s.plan with apply := some a } }).later else s.no 0x01B5#16

/-- OVERLAY_APPLY (R447, R448): a Base Plan that is stored and not yet in force takes effect with it. -/
def cmdOverlayApply (_ : Nat) (u : MUnit) (s : State) : Reply := s.beginApply (le u.payload 0 1) s.plan.stored u

/-! ### PLAN_LOAD (R445 to R447) -/

/-- PLAN_LOAD: the checks, then the copy that is not current is written. -/
def cmdPlanLoad (m : Nat) (u : MUnit) (s : State) : Reply :=
  let b := u.payload
  let kind := le b 0 1
  let bs := s.stageGet m (le b 4 4) (le b 8 4)
  if !s.nv then s.no 0x0421#16
  else match s.wrapCheck kind bs with
    | some st => s.no st
    | none =>
      let r : Except Status FlashWhy :=
        if kind = 0 then (s.planCheck 0 bs).map .base
        else if kind = 1 then (s.planCheck 1 bs).map fun p => .overlay (planMode bs) p
        else (s.surveyCheck bs).map .survey
      match r with
      | .error st => s.no st
      | .ok w => (s.addFlash { why := w, left := flashOps bs.length, busy := false, mbox := m, unit := some u }).later

/-- The Survey Plan takes effect on all links at once (R386, R388): FAILSET is empty, training begins. -/
def State.useSurvey (s : State) (v : Survey) : State :=
  let n := v.self.getD 0xFFFF
  let s := { s with modNum := n,
                    trv := { s.trv with survey := some v, ports := [], routes := v.routes n [],
                                        links := (List.range 18).map fun k =>
                                          (k, { (s.tlink k).fresh with st := .training, since := s.aon }),
                                        cl := { failed := [], reopened := [], seen := [], ecount := 0, event := none,
                                                running := false } } }
  s.measure 4 (bytes48 (Config.sha384 v.bytes))

def State.takeSurvey (s : State) (v : Survey) : State :=
  (s.useSurvey v).cairnEvent 0x0032 0 (natLe 1 2 ++ natLe 4 v.planGen)

/-- The number by which the key store knows the digest of an object (R452). -/
def FlashWhy.slot : FlashWhy → Nat
  | .base _ => 0
  | .overlay m _ => 1 + m
  | _ => 5

def FlashWhy.object : FlashWhy → List Byte
  | .base p => p.bytes
  | .overlay _ p => p.bytes
  | .survey v => v.bytes
  | _ => []

/-- An object is stored and its digest recorded: it becomes current (R446, R447). -/
def State.planStored (s : State) (w : FlashWhy) (u : MUnit) : State :=
  let s := s.modSec fun x => { x with digests := fput x.digests w.slot (Config.sha384 w.object) }
  match w with
  | .base p =>
    let s := { s with plan := { s.plan with stored := some p, overlays := [] } }
    let r := s.beginApply (((findEntry p.entries 0x0001 0xFF 0).map fun v => le v 0 1).getD 1) (some p) u
    match r.2 with
    | some x => r.1.respond 16 u x.1 x.2
    | none => r.1
  | .overlay m p =>
    ({ s with plan := { s.plan with overlays := fput s.plan.overlays m p } }.cairnEvent 0x0032 0 (natLe 1 1 ++ natLe 4 p.gen)).respond
      16 u 0 []
  | .survey v => ((s.modSec fun x => { x with survey := some v }).takeSurvey v).respond 16 u 0 []
  | _ => s

end Sys2Proof.Machine
end

