-- ==== Sys2Proof/Machine/TpertOps.lean ====
section
/-!
DEFINITION. The test perturbation registers (R525 to R527).
-/

namespace Sys2Proof.Machine

/-- Whether INDEX lies in the range of a KIND (R526). -/
def targetOk (v : Nat) : Bool :=
  bits v 63 24 == 0 && decide (bits v 23 16 ≤ 6) && decide (bits v 15 0 < [65536, 1024, 64, 36, 26, 18, 16].getD (bits v 23 16) 0)

/-- Reserved bits and values of TPERT_ACTION. -/
def actionOk (v : Nat) : Bool :=
  bits v 63 56 == 0 && bits v 47 46 == 0 && bits v 11 4 == 0 && bits v 43 42 == 0 && decide (bits v 45 44 ≤ 1 ∧ bits v 3 1 ≤ 4 ∧ 16 ≤ bits v 35 28)

/-- The pairs of TYPE and KIND that R527 permits; KIND 0 names nothing. -/
def pairPermitted (type kind : Nat) : Bool :=
  kind == 0 || (match type with
    | 0 => [1, 2, 3].contains kind
    | 1 => [4, 5, 6].contains kind
    | 2 => kind == 3
    | 3 => kind == 5
    | 4 => [1, 3].contains kind
    | _ => false)

def State.tpert (s : State) (e : Nat) : Tpert := tget .reset s.dep.tperts e

def State.setTpert (s : State) (e : Nat) (x : Tpert) : State := { s with dep := { s.dep with tperts := fput s.dep.tperts e x } }

/-- Whether a serving Parcel holds a resource, or a link is ACTIVE (R425, R525). -/
def State.heldByServing (s : State) (kind ix : Nat) : Bool :=
  if kind = 5 then (s.tlink ix).st == .active
  else (List.range 16).any fun p => (s.parcel p).serving && (s.parcel p).holds kind ix

/-- Writes TARGET and ACTION of an entry; arming and clearing enter the Cairn (R525). -/
def State.armTpert (s : State) (e : Nat) (x : Tpert) : Reply :=
  let t := x.target.toNat
  let a := x.action.toNat
  if !targetOk t ∨ !actionOk a ∨ !pairPermitted (bits a 3 1) (bits t 23 16) then s.no 0x01E0#16
  else if s.heldByServing (bits t 23 16) (bits t 15 0) then s.no 0x02B4#16
  else
    let was := (s.tpert e).action.getLsbD 0
    let s := s.setTpert e x
    let s := if was = x.action.getLsbD 0 then s else s.cairnEvent 0x0040 0 (natLe 1 e ++ natLe 1 (b2n (x.action.getLsbD 0)))
    s.yes []

/-- Clears ENABLE of every entry. -/
def State.clearTperts (s : State) : State := s.disarmWhere fun _ => true

/-- The value of a register by its offset. -/
def State.tpertValue (s : State) (o : Nat) : BitVec 64 :=
  let x := s.tpert (o / 32)
  if o = 0x200 then 0 else if o % 32 = 0 then x.target else if o % 32 = 8 then x.action else if o % 32 = 16 then x.addr else x.hits

/-- A write of a register; HITS is read-only. -/
def State.tpertWrite (s : State) (o : Nat) (v : BitVec 64) : Reply :=
  let x := s.tpert (o / 32)
  if o = 0x200 then
    (if bits v.toNat 63 1 ≠ 0 then s.no 0x01E0#16 else if v.getLsbD 0 then s.clearTperts.yes [] else s.yes [])
  else if o % 32 = 0 then s.armTpert (o / 32) { x with target := v }
  else if o % 32 = 8 then s.armTpert (o / 32) { x with action := v }
  else if o % 32 = 16 then (if bits v.toNat 62 44 ≠ 0 then s.no 0x01E0#16 else (s.setTpert (o / 32) { x with addr := v }).yes [])
  else s.yes []

/-- TPERT_ACCESS: an offset that names no register is an argument out of range. The response holds the value after a write. -/
def cmdTpertAccess (_ : Nat) (u : MUnit) (s : State) : Reply :=
  let b := u.payload
  let o := le b 0 4
  if o % 8 ≠ 0 ∨ 0x200 < o then s.no 0x01B2#16
  else
    let r := if le b 4 1 = 1 then s.tpertWrite o (BitVec.ofNat 64 (le b 8 8)) else s.yes []
    match r.2 with
    | some (0, _) => r.1.yes (natLe 8 (r.1.tpertValue o).toNat)
    | _ => r

/-- TPERT_CLEAR_ALL (R526). -/
def execTpertClearAll (t : Nat) (s : State) : Host.Outcome State Fault Refusal := .next (s.tickTo t).clearTperts

end Sys2Proof.Machine
end

