-- ==== Sys2Proof/Machine/Security.lean ====
section
/-!
DEFINITION. Firmware images, operator keys, attestation, fuses, the debug port and the TAP (R455, R456, R460 to R473).
-/

namespace Sys2Proof.Machine

/-! ### Images (R455, R456, R467) -/

/-- The checks of R456. -/
def imageCheck (svn : Nat) (b : List Byte) : Option Status :=
  let n := le b 8 4
  let x := signed (64 + n) b
  if le b 0 4 ≠ 0x5846574D ∨ le b 4 1 ≠ 1 ∨ le b 5 1 ≠ 0 ∨ 64 < le b 6 2 ∨ n % 64 ≠ 0 ∨ n < 64 ∨ 25100288 < n ∨ !zeros b 16 48
      ∨ b.length ≠ 64 + n + 3060 then some 0x01D0#16
  else if !Config.ecdsaOk Config.firmwareEcdsaKey x.1 x.2.1 then some 0x0660#16
  else if !Config.hssOk Config.firmwareHssKey x.1 x.2.2 then some 0x0661#16
  else if le b 6 2 < svn then some 0x0662#16
  else none

/-- The region is programmed in sectors of one erase and 16 page programs. -/
def imageJob (b : List Byte) (m : Nat) (u : Option MUnit) (recover : Bool) : FlashJob :=
  { why := .image b recover, left := 17 * ceilDiv b.length 4096, busy := false, mbox := m, unit := u }

/-- The programmed region is read back (R467 step 3). -/
def State.imageReadBack (s : State) (b : List Byte) : State × Option Status :=
  match imageCheck s.sec.svn b with
  | some _ => (s.modSec fun x => { x with image := { valid := false, bytes := b, since := none } }, some 0x03D0#16)
  | none =>
    ((s.modSec fun x => { x with image := { valid := true, bytes := b, since := none } }).cairnEvent 0x0032 0
      (natLe 1 3 ++ natLe 4 (le b 12 4)), none)

/-! ### Operator keys (R462) -/

/-- The form of a key record. -/
def keyFormat (b : List Byte) : Bool :=
  b.length == 256 + 3060 && le b 0 4 == 0x584B4559 && le b 4 1 == 1 && decide (le b 5 1 ≤ 1) && zeros b 6 2 && zeros b 20 44 && zeros b 221 35

/-- Enrolment: the record is written to the key store. -/
def State.enrol (s : State) (m : Nat) (u : MUnit) (b : List Byte) : Reply :=
  let role := le b 5 1
  let x := signed 256 b
  if !keyFormat b ∨ le b 16 4 ≤ (tget .empty s.sec.slots role).enrol then s.no 0x01D1#16
  else if BitVec.ofNat 64 (le b 8 8) ≠ Config.devId ∨ !(bothOk factoryKeys x || (s.enrolled role && bothOk (s.slotKeys role) x)) then
    s.no 0x0663#16
  else (s.addKey (.slot role { enrol := le b 16 4, ecdsa := (b.drop 64).take 97, hss := (b.drop 161).take 60 }) m (some u)).later

/-- A slot is filled, and M5 extended. -/
def State.slotWritten (s : State) (role : Nat) (k : KeySlot) : State :=
  let s := s.modSec fun x => { x with slots := fput x.slots role k }
  s.measure 5 (slotDigest s)

/-- IMAGE_UPDATE (R467). -/
def cmdImageUpdate (m : Nat) (u : MUnit) (s : State) : Reply :=
  let b := s.stageGet m (le u.payload 0 4) (le u.payload 4 4)
  if !s.nv then s.no 0x0421#16
  else if le b 0 4 = 0x584B4559 then s.enrol m u b
  else match imageCheck s.sec.svn b with
    | some st => s.no st
    | none => (s.addFlash (imageJob b m (some u) s.inRecovery)).later

/-! ### Attestation (R464 to R466) -/

/-- PARCEL_DIGEST. -/
def State.parcelDigest (s : State) (m : Nat) : List Byte :=
  if 16 ≤ m then List.replicate 48 0
  else
    let rs := (s.parcel m).recipes.mergeSort fun a b => decide (a.1 ≤ b.1)
    bytes48 (Config.sha384 (rs.flatMap fun r => r.2.head))

/-- The body of a report. -/
def State.reportBody (s : State) (a : Attest) : List Byte :=
  let x := s.sec
  fit 0 512 (natLe 4 0x58415452 ++ natLe 1 1 ++ natLe 1 s.plan.mode ++ natLe 1 x.svn ++ natLe 1 x.dbg ++ natLe 8 Config.devId.toNat
    ++ natLe 4 s.dep.hours ++ natLe 4 (s.dep.cycles % 2 ^ 24) ++ natLe 4 (a.q % 2 ^ 20) ++ natLe 1 a.mbox ++ natLe 3 0
    ++ fit 0 48 a.unit.payload ++ (List.range 6).flatMap (fun i => bytes48 (tget 0 x.m i)) ++ s.parcelDigest a.mbox
    ++ natLe 4 s.plan.force.gen ++ natLe 4 ((s.plan.ovl.map (·.gen)).getD 0) ++ natLe 2 ((s.trv.survey.map (·.planGen)).getD 0)
    ++ natLe 2 0 ++ natLe 4 x.build)

/-- The report is signed, written to staging, and the command answered. -/
def State.signReport (s : State) (a : Attest) : State :=
  let b := s.reportBody a
  let r := b ++ fit 0 96 (Config.ecdsaSign b) ++ fit 0 2964 (Config.hssSign a.q b)
  let o := stageSize a.mbox - 4096
  (((s.stagePut a.mbox o r).modCount .attests).modSec fun x =>
    { x with treeReady := if a.q % 1024 = 0 then false else x.treeReady }).respond a.mbox a.unit 0 (natLe 4 o ++ natLe 4 3572)

/-- Reports whose counter write has ended are released in order; one at the start of a lower tree waits until that tree is complete. -/
def State.releaseReports (s : State) : Nat → State
  | 0 => s
  | n + 1 => match s.sec.attests with
    | [] => s
    | a :: r =>
      if !a.done ∨ (a.q % 1024 = 0 ∧ !s.sec.treeReady) then s
      else State.releaseReports ((s.modSec fun x => { x with attests := r }).signReport a) n

/-- ATTEST (R464 to R466). -/
def cmdAttest (m : Nat) (u : MUnit) (s : State) : Reply :=
  let x := s.sec
  if !s.nv then s.no 0x0421#16
  else if x.bucket = 0 then s.no 0x02D1#16
  else if 1048576 ≤ x.nextQ then s.no 0x0665#16
  else
    ((s.modSec fun x =>
      { x with nextQ := x.nextQ + 1, bucket := x.bucket - 1, attests := x.attests ++ [{ mbox := m, unit := u, q := x.nextQ, done := false }] }
      ).startLms).later

/-- Marks the first report that waits for its counter write. -/
def markDone : List Attest → List Attest
  | [] => []
  | a :: r => if a.done then a :: markDone r else { a with done := true } :: r

/-- The counter write has ended. -/
def State.lmsWritten (s : State) : State :=
  s.modSec fun x => { x with lmsBusy := false, kept := x.bucket, attests := markDone x.attests }

/-- LMS_COUNTER_WRITE_DONE (R465). -/
def lmsCounterWriteDone (t : Nat) (s : State) : State :=
  let s := s.tickTo t
  if !s.sec.lmsBusy then s
  else
    let s := s.lmsWritten.startLms
    s.releaseReports s.sec.attests.length

/-- LOWER_TREE_COMPLETE (R465). -/
def lowerTreeComplete (t : Nat) (s : State) : State :=
  let s := (s.tickTo t).modSec fun x => { x with treeReady := true }
  s.releaseReports s.sec.attests.length

/-- BUCKET_REFILL (R466): one unit for each 4 Cairn units of operating hours that have passed since the last. -/
def bucketRefill (t : Nat) (s : State) : State :=
  let s := s.tickTo t
  if s.sec.refill = s.dep.hours / 4 then s else s.modSec fun x => { x with bucket := min 64 (x.bucket + (s.dep.hours / 4 - x.refill)), refill := s.dep.hours / 4 }

/-! ### The debug port (R471 to R473) -/

/-- DEBUG_UNLOCK with OP 0: a fresh challenge. -/
def debugChallenge (s : State) : Reply :=
  let c := Config.random384 s.sec.draws
  (s.modSec fun x => { x with challenge := some (c, s.aon), draws := x.draws + 1 }).yes (bytes48 c)

/-- Check 3 of R471. -/
def State.debugAuthOk (s : State) (c : BitVec 384) (b : List Byte) : Bool :=
  le b 0 4 == 0x58444247 && le b 4 1 == 1 && zeros b 5 3 && BitVec.ofNat 64 (le b 8 8) == Config.devId && (b.drop 16).take 48 == bytes48 c
    && s.enrolled 1 && bothOk (s.slotKeys 1) (signed 64 b)

/-- Steps 2 and 3 of R472: keys and challenge are zeroised, every Parcel is reset, the weight-store links are held in reset. -/
def State.zeroise (s : State) (u : MUnit) : State :=
  let s := s.modSec fun x => { x with keys := false, challenge := none, dbgStep := some (u, 3) }
  let s := (List.range 16).foldl (fun s p =>
    if (s.parcel p).st = .active then s.startReset p { purge := false, byM := false, units := [], erases := [], forPlan := false } else s) s
  let s := { s with mem := { s.mem with wsl := [] } }
  (List.range 16).foldl (fun s k => s.modStack (20 + k) fun x => { x with status := x.status &&& ~~~ 0x10#32 }) s

/-- DEBUG_UNLOCK with OP 1. -/
def debugAuthorise (m : Nat) (u : MUnit) (s : State) : Reply :=
  let b := s.stageGet m (le u.payload 4 4) 3124
  let fail (st : Status) : Reply := (s.modSec fun x => { x with challenge := none }).no st
  if s.plan.mode ≠ 3 then fail 0x02C1#16
  else match s.sec.challenge with
    | none => fail 0x02D0#16
    | some (c, at') =>
      if at' + 1300000000 ≤ s.aon then fail 0x02D0#16
      else if !s.debugAuthOk c b then fail 0x0664#16
      else if !s.nv then fail 0x0421#16
      else if s.sec.dbg < 16 then ((s.modSec fun x => { x with challenge := none, dbgStep := some (u, 1) }).startFuse).later
      else (s.zeroise u).later

/-- DEBUG_UNLOCK (R471). -/
def cmdDebugUnlock (m : Nat) (u : MUnit) (s : State) : Reply :=
  if le u.payload 0 1 = 0 then debugChallenge s else debugAuthorise m u s

/-- CHALLENGE_EXPIRE (R471): after 100 s. -/
def challengeExpire (t : Nat) (s : State) : State :=
  let s := s.tickTo t
  match s.sec.challenge with
  | some (_, at') => if at' + 1300000000 ≤ s.aon then s.modSec fun x => { x with challenge := none } else s
  | none => s

/-- DEBUG_PORT_OPEN (R472 steps 4 to 6): the Stations are scrubbed, Tiers N and H zero-filled, a record is written when it may be, and the
TAP opens. -/
def debugPortOpen (t : Nat) (s : State) : State :=
  let s := s.tickTo t
  match s.sec.dbgStep with
  | some (u, 3) =>
    if s.anyResetting ∨ !s.nv then s
    else
      let s := { s with stns := s.stns.map (fun (x : Nat × Station) => (x.1, { x.2.scrubbed with saveArea := none })),
                        mem := { s.mem with cells := s.mem.cells.filter (fun c => decide (20 * 2 ^ 38 ≤ c.1)),
                                            poison := s.mem.poison.filter fun k => decide (20 * 2 ^ 32 ≤ k) } }
      let s := s.cairnEvent 0x0030 0 (natLe 1 s.sec.dbg)
      (s.modSec fun x => { x with dbgStep := none, open' := true }).respond 16 u 0 []
  | _ => s

/-! ### Fuses (R460, R472) -/

/-- FUSE_ADVANCE_DUE (R460): 24 operating hours under an image of a higher version. -/
def fuseAdvanceDue (t : Nat) (s : State) : State :=
  let s := s.tickTo t
  let x := s.sec
  match x.since with
  | some h =>
    if x.boot = 7 ∧ x.svn < x.runSvn ∧ h + 1536 ≤ s.dep.hours ∧ x.fuseTo.isNone then
      (s.modSec fun x => { x with fuseTo := some x.runSvn }).startFuse
    else s
  | none => s

/-- The fuse that blows has blown. -/
def State.fuseBlown (s : State) : State :=
  match s.sec.fuseBusy with
  | none => s
  | some true => s.modSec fun x => { x with fuseBusy := none, dbg := min 16 (x.dbg + 1) }
  | some false =>
    let v := s.sec.svn + 1
    (s.modSec fun x => { x with fuseBusy := none, svn := v, fuseTo := if x.fuseTo = some v then none else x.fuseTo }).cairnEvent 0x0031 0
      (natLe 1 v)

/-- FUSE_BLOW_COMPLETE (R454): an opening goes on, and the next fuse may blow. -/
def fuseBlowComplete (t : Nat) (s : State) : State :=
  let s := s.tickTo t
  let busy := s.sec.fuseBusy
  let s := s.fuseBlown
  let s := match busy, s.sec.dbgStep with
    | some true, some (u, 1) => s.zeroise u
    | _, _ => s
  s.startFuse

/-! ### The TAP (R470) -/

/-- Selects an instruction: one that may not be used acts as BYPASS. The TAP works while the module is powered. -/
def State.tapSelect (s : State) (code : Byte) (allowed : Bool) : State :=
  if s.pwr.powered then s.modSec fun x => { x with tap := if allowed then code else 0xFF#8 } else s

/-- The bits of a word, lowest first. -/
def wordBits (w v : Nat) : List Bool := (List.range w).map fun i => v.testBit i

/-- IDCODE, whose register reads 0x1F40_026B. -/
def State.tapIdcode (s : State) : State :=
  if s.pwr.powered then (s.tapSelect 0x01#8 true).emit (.tap (wordBits 32 0x1F40026B)) else s

/-- Whether the boundary-scan instructions that drive pins may be used. -/
def State.tapDrives (s : State) : Bool := s.sec.open' || !s.pwr.resetN

/-! ### The meanings -/

def execFuseAdvanceDue (t : Nat) (s : State) : Host.Outcome State Fault Refusal := .next (fuseAdvanceDue t s)
def execBucketRefill (t : Nat) (s : State) : Host.Outcome State Fault Refusal := .next (bucketRefill t s)
def execChallengeExpire (t : Nat) (s : State) : Host.Outcome State Fault Refusal := .next (challengeExpire t s)
def execBypass (s : State) : Host.Outcome State Fault Refusal := .next (s.tapSelect 0xFF#8 true)
def execIdcode (s : State) : Host.Outcome State Fault Refusal := .next s.tapIdcode
def execSamplePreload (s : State) : Host.Outcome State Fault Refusal := .next (s.tapSelect 0x02#8 true)
def execExtest (s : State) : Host.Outcome State Fault Refusal := .next (s.tapSelect 0x03#8 s.tapDrives)
def execClamp (s : State) : Host.Outcome State Fault Refusal := .next (s.tapSelect 0x04#8 s.tapDrives)
def execHighz (s : State) : Host.Outcome State Fault Refusal := .next (s.tapSelect 0x05#8 s.tapDrives)
def execDieDebugChain (k : BitVec 4) (s : State) : Host.Outcome State Fault Refusal :=
  .next (s.tapSelect (BitVec.ofNat 8 (16 + k.toNat)) s.sec.open')
def execTestLogicReset (_ : Bool) (s : State) : Host.Outcome State Fault Refusal := .next (s.tapSelect 0x01#8 true)

end Sys2Proof.Machine
end

