-- ==== Sys2Proof/Machine/Boot.lean ====
section
/-!
DEFINITION. Resets and the boot sequence (R322, R328, R457 to R460, R485, R491, R492, R498).
-/

namespace Sys2Proof.Machine

/-! ### The end of the writes that have started (R494, R498) -/

/-- The flash operation under way has ended: an erase of the Cairn's sector, or one more operation of its job. -/
def State.flashOpDone (s : State) (j : FlashJob) : State :=
  let s := match j.why with
    | .cairn _ => if j.left = 2 then s.eraseSector else s
    | _ => s
  s.modSec fun x => { x with flash := { j with left := j.left - 1, busy := false } :: x.flash.drop 1 }

/-- The key-store write under way has ended; a plan whose digest it records is stored. -/
def State.keyWritten (s : State) : State :=
  match s.sec.keyQ with
  | [] => s
  | (w, _, _) :: r =>
    let s := s.modSec fun x => { x with keyQ := r, keyBusy := false }
    match w with
    | .slot role k => s.slotWritten role k
    | .plan w =>
      let s := s.modSec fun x => { x with digests := fput x.digests w.slot (Config.sha384 w.object) }
      match w with
      | .base p => { s with plan := { s.plan with stored := some p, overlays := [] } }
      | .overlay m p => { s with plan := { s.plan with overlays := fput s.plan.overlays m p } }
      | .survey v => s.modSec fun x => { x with survey := some v }
      | _ => s

/-- The non-volatile writes under way run to their end, and no other starts. -/
def State.finishNv (s : State) : State :=
  let on := s.pwr.powered
  let s := { s with pwr := { s.pwr with powered := false } }
  let s := (s.mem.wjobs.filter (·.busy)).foldl State.writeDone s
  let s := match s.sec.flash with
    | j :: _ =>
      if !j.busy then s
      else
        let s := s.flashOpDone j
        (match j.why, j.left with
         | .cairn n, 1 => s.cairnWritten n
         | .image b _, 1 => (s.imageReadBack b).1
         | _, _ => s)
    | [] => s
  let s := if s.sec.keyBusy then s.keyWritten else s
  let s := if s.sec.lmsBusy then s.lmsWritten else s
  let s := s.fuseBlown
  { s with pwr := { s.pwr with powered := on } }

/-! ### Resets -/

/-- The Base Plan in the configuration flash; none while only the factory one exists. -/
def Plan.kept (p : Plan) : Option PlanObj := p.stored.orElse fun _ => if p.force.gen = 0 then none else some p.force

/-- The module resets internally (R485 steps 2, 3 and 5): Stations stop, ports and links fall silent, and what is volatile is lost. What
remains is the contents of Tier W, the flash, the key store, the fuses and the counter, the clock's own state and CLK_FAULT_CAUSE, the
counters that only a power-up clears, and the units withdrawn until then. -/
def State.internalReset (s : State) : State :=
  let s := s.finishNv
  { s with
    stns := [], seams := s.seams.filter (fun x => !x.2.service), trk := .reset, parcels := [], reqs := [], gates := [], adapts := [],
    duty := [], srvCtr := [], mbox := [], mboxCtr := [], presets := [], i3c := .reset,
    plan := { Plan.reset with stored := s.plan.kept, overlays := s.plan.overlays },
    modNum := 0xFFFF, sent := [], trvTag := 0, trv := .reset,
    mem := { Mem.reset with cells := s.mem.cells.filter (fun c => decide (20 * 2 ^ 38 ≤ c.1)), tags := s.mem.tags, pgen := s.mem.pgen,
                            frameDraw := s.mem.frameDraw, atomicId := s.mem.atomicId },
    clk := { Clk.reset with ssc := s.clk.ssc, pll := s.clk.pll, refOk := s.clk.refOk, supply := s.clk.supply, fault := s.clk.fault },
    pwr := { s.pwr with samples := [], msSum := 0, msCnt := 0, secs := [], stn := [], since := [], waking := [], silent := true,
                        ctr := [PC.attests, PC.attestRefused, PC.imageAnswers].foldl (fun t k => tdel t k.num) s.pwr.ctr },
    sec := { Sec.reset with svn := s.sec.svn, dbg := s.sec.dbg, halted := s.sec.halted, refill := s.sec.refill, fuseTo := s.sec.fuseTo, slots := s.sec.slots, digests := s.sec.digests,
                            nextQ := s.sec.nextQ - s.sec.attests.countP (fun a => !a.done), bucket := s.sec.kept, kept := s.sec.kept, image := s.sec.image,
                            survey := s.sec.survey, draws := s.sec.draws },
    dep := { s.dep with pairs := 0, dies := [], log := [], adderKat := [], slack := [], window := none, tperts := [], samples := [] },
    cairn := { s.cairn with buf := [], lost := false, before := false },
    panel := { s.panel with link0 := false, link1 := false } }

/-! ### Memory start-up (R322, R328) -/

/-- The page of a valid tag, from the frames whose tags name it with the highest PGEN: the lowest is the home, the next in another stack
the mirror of a W-shared page. The second list are the frames to be erased. -/
def pageFromTags (g : Nat) (ts : List (Nat × Tag)) : PageEntry × List Nat :=
  let mine := ts.filter fun x => x.2.rpage == g
  let top := mine.foldl (fun m x => max m x.2.pgen) 0
  match (mine.filter fun x => x.2.pgen == top).mergeSort fun a b => decide (a.1 ≤ b.1) with
  | [] => (.none, [])
  | h :: r =>
    let k := h.1 / 2 ^ 17 - 20
    let f := h.1 % 2 ^ 17
    let e : PageEntry := { PageEntry.none with valid := true, cls := if h.2.cls = 2 then .wShared else .wPrivate, loc := 2, lstack := k,
                                               lframe := f, owner := h.2.parcel, hstack := k, hframe := f }
    let m := if h.2.cls = 2 then r.find? fun x => x.1 / 2 ^ 17 != h.1 / 2 ^ 17 else none
    let e := match m with
      | some x => { e with mirrored := true, mstack := x.1 / 2 ^ 17 - 20, mframe := x.1 % 2 ^ 17 }
      | none => e
    (e, (mine.map (·.1)).filter fun x => x != h.1 && some x != m.map (·.1))

/-- Rebuilds the W-class entries of the page map; frames without a page and without a retired tag are erased. -/
def State.memStart (s : State) : State :=
  let ts := s.mem.tags.filter fun x => x.2.tstate == 1
  let top : Nat := ts.foldl (fun m x => max m x.2.pgen) 0
  let s : State := { s with mem := { s.mem with pgen := top } }
  let s := ((ts.map (·.2.rpage)).eraseDups).foldl (fun s g =>
    let r := pageFromTags g ts
    r.2.foldl (fun s x => s.releaseFrame (x / 2 ^ 17) (x % 2 ^ 17)) (s.setPage g r.1)) s
  ((s.mem.cells.map fun (c : Nat × Byte) => c.1 / 2 ^ 21).eraseDups).foldl (fun s x =>
    if (tget .erased s.mem.tags x).tstate = 0 then s.releaseFrame (x / 2 ^ 17) (x % 2 ^ 17) else s) s

/-! ### The boot sequence (R457) -/

/-- The bytes that both signatures of an image cover. -/
def imageBody (b : List Byte) : List Byte := b.take (64 + le b 8 4)

/-- Step 2: the keys are loaded, M0 is extended with the ROM version, the fuse security version and DBG_COUNT. -/
def State.bootKeys (s : State) : State :=
  (s.modSec fun x => { x with keys := true, locked := true, bucket := x.kept, m := [], boot := 2 }).measure 0
    (bytes48 (Config.sha384 (Config.romVersion ++ natLe 1 s.sec.svn ++ natLe 1 s.sec.dbg)))

/-- A stored object, unless its digest is not the one recorded (R459). -/
def State.digestOk (s : State) (slot : Nat) (b : List Byte) : Bool := tget 0 s.sec.digests slot == Config.sha384 b

/-- Step 6: memory, the stored plans and their measurements, the Cairn's records of what brought the reset. -/
def State.bootMemory (s : State) : State :=
  let s := s.memStart
  let base := match s.plan.stored with
    | some p => if s.digestOk 0 p.bytes then p else Plan.reset.force
    | none => Plan.reset.force
  let ovls := s.plan.overlays.filter fun x => s.digestOk (1 + x.1) x.2.bytes
  let s := { s with plan := { Plan.reset with force := base, overlays := ovls } }
  let s := s.measure 2 (bytes48 (Config.sha384 base.bytes))
  let s := match s.sec.survey with
    | some v => if s.digestOk 5 v.bytes ∧ v.self.isSome then s.useSurvey v else s
    | none => s
  let s := s.measure 5 (slotDigest s)
  let s := { s with cairn := { s.cairn with period := s.dep.hours } }
  let s := s.dep.later.foldl (fun s e => s.cairnEvent e.1 e.2.1 e.2.2) s
  { s with dep := { s.dep with later := [] } }

/-- Maps a D page of a Parcel at start-up; one that is mapped already, or that the Parcel's quota does not hold, stays out. -/
def State.bootPage (s : State) (p : Nat) (x : Nat × Nat × Nat) : State :=
  let k := x.2.2
  if runHigh x.1 1 ∨ (s.page x.1).valid ∨ 1 < x.2.1 ∨ (if x.2.1 = 0 then 4 else 16) ≤ k
      ∨ (s.parcel p).quota x.2.1 k < s.usage p x.2.1 k (2 ^ 23) + 1 then s
  else (s.mapPages p x.2.1 k [x.1]).getD s

/-- The D pages of the Base Plan's Parcels are mapped (R328 step 5). -/
def State.bootPages (s : State) : State :=
  (List.range 16).foldl (fun s p =>
    if (s.parcel p).st = .active then (Config.bootPages p).foldl (fun s x => s.bootPage p x) s else s) s

/-- Step 7: INIT_MODE with its Overlay. An advance of the fuses that a reset broke off goes on (R460). -/
def State.bootConfig (s : State) : State :=
  let b := s.plan.force
  let m := ((findEntry b.entries 0x0001 0xFF 0).map fun v => le v 0 1).getD 1
  let s := (s.loadConfig b m (s.plan.overlayFor b m)).bootPages
  let s := { s with pwr := { s.pwr with silent := false } }
  (s.modSec fun x => { x with boot := 7, fuseTo := if x.fuseTo = some x.runSvn then x.fuseTo else none }).startNv

/-- Steps 5 to 7, on an image that the ROM has verified. -/
def State.bootImage (s : State) : State :=
  let b := s.sec.image.bytes
  let h := s.dep.hours
  let s := s.measure 1 (bytes48 (Config.sha384 (imageBody b)))
  let s := s.modSec fun x =>
    let since := x.image.since.getD h
    { x with boot := 5, recover := none, open' := false, tap := 0x01#8, build := le b 12 4, runSvn := le b 6 2, since := some since,
             image := { x.image with since := some since } }
  s.bootMemory.bootConfig

/-- The ROM enters recovery: the management port and links T0 to T8 come up (R468). -/
def State.enterRecovery (s : State) : State :=
  let s := s.modSec fun x =>
    { x with recover := some { link := 18, since := s.aon, reqs := [], got := [], len := none, tag := 0, next := 0 } }
  (List.range 9).foldl (fun s k => s.modLink k fun l => { l.fresh with st := .training, since := s.aon }) s

/-- The boot sequence from the ROM's self-test on. A failed self-test halts the Bezel; an image that fails a check leads to recovery
(R458). -/
def State.boot (s : State) (selfTestOk : Bool) : State :=
  if !selfTestOk then s.modSec fun x => { x with halted := true }
  else
    let s := s.bootKeys
    if s.sec.image.valid ∧ imageCheck s.sec.svn s.sec.image.bytes = none then s.bootImage else s.enterRecovery

/-- Whether the module waits at the release of its internal reset (R491 step 4). -/
def State.held (s : State) : Bool :=
  s.pwr.powered && s.clk.pll && s.sec.boot == 0 && s.sec.recover.isNone && !s.sec.halted

/-- POWER_ON_RESET (R457): the internal reset is released, RESET_N being high. -/
def powerOnReset (t : Nat) (ok : Bool) (s : State) : State :=
  let s := s.tickTo t
  if s.held ∧ s.pwr.resetN then s.boot ok else s

/-- RESET_N goes low in service: every Station stops, ports and links fall silent (R492). -/
def resetNLow (t : Nat) (s : State) : State :=
  let s := s.tickTo t
  if !s.pwr.powered then { s with pwr := { s.pwr with resetN := false } }
  else let s := s.internalReset; { s with pwr := { s.pwr with resetN := false } }

/-- RESET_N goes high: the straps are sampled, the AON time begins anew, the module boots (R484, R492, R543). -/
def resetNHigh (modsel : BitVec 2) (ok : Bool) (s : State) : State :=
  if s.pwr.resetN then s
  else
    let s := { s with pwr := { s.pwr with resetN := true, modsel := modsel } }
    let s := { s with aon := 0, panel := { s.panel with present := s.panel.present.map (fun (x : Nat × Nat) => (x.1, 0)) } }
    if s.held then s.boot ok else s

/-! ### Power-up and power loss (R491, R498, R517) -/

/-- The newest record of the flash by RSEQ. -/
def Cairn.newest (c : Cairn) : Option (List Byte) :=
  (c.slots.map (·.2)).foldl (fun b r => match b with
    | none => some r
    | some x => if 0 < serialDist 32 (le r 8 4) (le x 8 4) then some r else some x) none

/-- The counters as Grenlor restores them from the newest record. -/
def State.restoreHours (s : State) : State :=
  let r := s.cairn.newest
  let h := (r.map fun b => le b 20 4).getD 0
  let c := min 0xFFFFFF ((r.map fun b => le b 16 3).getD 0 + 1)
  { s with dep := { s.dep with hours := h, cycles := c },
           cairn := { s.cairn with rseq := ((r.map fun b => le b 8 4 + 1).getD 0) % 2 ^ 32 },
           sec := { s.sec with refill := h / 4 } }

/-- The spread-spectrum values of the stored Base Plan (R483). -/
def State.sscStored (s : State) : Nat × Nat :=
  match s.plan.kept.bind fun p => findEntry p.entries 0x0007 0xFF 0 with
  | some v => (le v 0 1, le v 1 1)
  | none => (0, 30)

/-- POWER_UP (R491): the input has been held at 40.0 V or above; rails rise, every Station is Off, the counters of R500 and R530 and the
causes of faults are cleared. The sag state is in force at or below 41.5 V. -/
def powerUp (vin : BitVec 16) (resetHigh : Bool) (s : State) : State :=
  if s.pwr.powered ∨ vin.toNat < 4000 ∨ 5000 < vin.toNat then s
  else
    let s := { s.internalReset with aon := 0, seams := [] }.modSec fun x => { x with halted := false }
    let s := { s with
      clk := { Clk.reset with ssc := s.sscStored, refOk := true },
      pwr := { Pwr.reset with powered := true, supply := if vin.toNat ≤ 4150 then .sag else .normal, vin := vin, resetN := resetHigh,
                              modsel := s.pwr.modsel, silent := true },
      dep := { s.dep with withdrawn := 0, adders := [], rail := 0, later := [] },
      panel := { Panel.reset with present := s.panel.present.map (fun (x : Nat × Nat) => (x.1, 0)) } }
    s.restoreHours

/-- SHUTDOWN (R498): no write starts, those under way end, ports and links fall silent, the rails fall. Records not yet written are lost. -/
def State.shutDown (s : State) : State :=
  let s := { s with pwr := { s.pwr with supply := .shut } }
  let s := s.internalReset
  { s with pwr := { s.pwr with powered := false, ok := false }, clk := { s.clk with pll := false, refOk := false } }

def execPowerOnReset (t : Nat) (ok : Bool) (s : State) : Host.Outcome State Fault Refusal := .next (powerOnReset t ok s)
def execResetNLow (t : Nat) (s : State) : Host.Outcome State Fault Refusal := .next (resetNLow t s)
def execResetNHigh (modsel : BitVec 2) (ok : Bool) (s : State) : Host.Outcome State Fault Refusal := .next (resetNHigh modsel ok s)
def execPowerUp (vin : BitVec 16) (resetHigh : Bool) (s : State) : Host.Outcome State Fault Refusal := .next (powerUp vin resetHigh s)

end Sys2Proof.Machine
end

