-- ==== Sys2Proof/Machine/Recovery.lean ====
section
/-!
DEFINITION. Traverse frames as bytes (R372, R373), and the fetching of an image in recovery and its answers (R468, R469).
-/

namespace Sys2Proof.Machine

/-! ### Frames (R372, R373) -/

/-- The header of a frame with the per-hop fields taken as 0. -/
def frameHead (kind : Nat) (f : TFrame) : List Byte :=
  trvHead kind f.sparcel.toNat f.dparcel.toNat f.cls.toNat f.fver.toNat f.rsv7.toNat f.dest.toNat f.src.toNat f.hops.toNat f.plangen.toNat
    f.len.toNat f.rsv18.toNat f.tag.toNat f.addr.toNat

/-- Check 1 of R375. -/
def ecrcOk (kind : Nat) (f : TFrame) : Bool := crc32c (frameHead kind f ++ f.payload) == f.ecrc

/-- The class that a TYPE must carry (R374). -/
def classOf (kind : Nat) : Nat := if [0x01, 0x02, 0x07, 0x08].contains kind then 1 else if kind = 0x03 ∨ kind = 0x04 then 2 else 0

/-- What check 2 of R375 asks of every frame. -/
def headLegal (kind : Nat) (f : TFrame) : Bool :=
  f.fver == 1#8 && f.cls.toNat == classOf kind && f.rsv7 == 0 && decide (f.dest.toNat < 4096 ∧ f.src.toNat < 4096 ∧ f.hops.toNat < 4096)
    && f.rsv18 == 0 && decide (f.len.toNat ≤ 4096) && f.payload.length == f.len.toNat

/-- LEN, ADDR and the payload of a TYPE (R374). -/
def bodyLegal (kind : Nat) (f : TFrame) : Bool :=
  let n := f.payload.length
  let a := f.addr.toNat
  let b := f.payload
  match kind with
  | 0x01 => decide (64 ≤ n) && n % 64 == 0 && a % 64 == 0
  | 0x02 => n == 1544 && a % 8 == 0
  | 0x03 => a == 0 && n == 4 && zeros b 2 2
  | 0x04 => a == 0 && n == 8 && le b 0 1 == 0
  | 0x05 => a == 0
  | 0x06 => a == 0 && n == 16 && decide (1 ≤ le b 0 1 ∧ le b 0 1 ≤ 3) && zeros b 1 1
  | 0x07 => a != 0 || zeros b 8 24
  | 0x08 => a != 0 || (zeros b 3 1 && zeros b 12 4)
  | 0x09 => a == 0 && n == 8 && zeros b 3 1
  | 0x0A => true
  | 0x20 => a == 0 && n == 32 && zeros b 10 6 && zeros b 24 8
  | 0x21 => a == 0 && n == 16 && zeros b 7 1 && zeros b 11 5
  | 0x22 => a == 0 && n == 16 && zeros b 7 1 && zeros b 11 5
  | _ => false

/-! ### The links -/

/-- Whether a link is in use: after the boot, or T0 to T8 in recovery (R468). -/
def State.linkUsed (s : State) (k : Nat) : Bool :=
  s.pwr.powered && ((s.sec.boot == 7 && !s.pwr.silent) || (s.inRecovery && decide (k < 9)))

/-- Whether a link carries link-local IMAGE frames (R469). -/
def State.imageLink (s : State) (k : Nat) : Bool :=
  s.linkUsed k && ((s.tlink k).st == .hello || (s.tlink k).st == .quarantined || (s.tlink k).st == .active)

/-- Sends an IMAGE frame on a link: port 18, link `k`; DEST, SRC, HOPS and PLANGEN are 0. -/
def State.sendImage (s : State) (k tag off : Nat) (pay : List Byte) : State :=
  s.emit (.traverse 18 k 0 0 0x0A 0 0 0 0 tag off 0 0 (crc32c (trvHead 0x0A 0 0 0 1 0 0 0 0 0 pay.length 0 tag off ++ pay)) pay)

/-! ### Answers -/

/-- A request of a neighbour: a valid image is answered from the offset named, but not while it is being updated. -/
def State.imageAnswer (s : State) (k : Nat) (f : TFrame) : State :=
  let pay := (s.sec.image.bytes.drop f.addr.toNat).take 4096
  if s.inRecovery ∨ !s.sec.image.valid ∨ s.sec.flash.any (fun j => j.why.isImage) ∨ pay = [] then s
  else (s.modCount .imageAnswers).sendImage k f.tag.toNat f.addr.toNat pay

/-! ### The fetch -/

def State.modRec (s : State) (f : Recov → Recov) : State := s.modSec fun x => { x with recover := x.recover.map f }

/-- Requests leave until four are outstanding or the image's end is reached. -/
def State.fillReqs (s : State) : Nat → State
  | 0 => s
  | n + 1 => match s.sec.recover with
    | none => s
    | some r =>
      if 4 ≤ r.reqs.length ∨ r.len.any (fun l => decide (l ≤ r.next)) ∨ 25165824 ≤ r.next then s
      else
        let s := s.modRec fun r =>
          { r with reqs := r.reqs ++ [(r.tag, r.next, 0, s.aon)], tag := (r.tag + 1) % 2 ^ 32, next := r.next + 4096 }
        State.fillReqs (s.sendImage r.link r.tag r.next []) n

/-- Begins to fetch from a link. -/
def State.startFetch (s : State) (k : Nat) : State :=
  (s.modRec fun r => { r with link := k, reqs := [], got := [], len := none, next := 0 }).fillReqs 4

/-- The next source after a link; when none is left, all have failed (R468). -/
def State.nextSource (s : State) (after : Option Nat) : State :=
  match (List.range 9).find? fun k => (after.all fun a => decide (a < k)) && s.imageLink k with
  | some k => s.startFetch k
  | none => s.modRec fun r => { r with link := 18, since := s.aon, reqs := [], got := [], len := none, next := 0 }

/-- The image so far: the parts from offset 0 on. -/
def partsFrom (t : Tab (List Byte)) (o : Nat) : Nat → List Byte
  | 0 => []
  | n + 1 => match t.find? fun x => x.1 == o with
    | some x => if x.2 = [] then [] else x.2 ++ partsFrom t (o + x.2.length) n
    | none => []

/-- A part that answers a request. The whole image is checked: one that passes is programmed, else the next source is tried, as it is when
no request is left and parts are wanting. -/
def State.imagePart (s : State) (k : Nat) (f : TFrame) : State :=
  match s.sec.recover with
  | none => s
  | some r =>
    match r.reqs.find? fun q => q.1 == f.tag.toNat && q.2.1 == f.addr.toNat with
    | none => s
    | some q =>
      if r.link ≠ k then s
      else
        let got := fput r.got q.2.1 f.payload
        let len := if q.2.1 = 0 then some (64 + le f.payload 8 4 + 3060) else r.len
        let s := s.modRec fun r =>
          { r with got := got, len := len,
                   reqs := (r.reqs.erase q).filter fun x => len.all fun l => decide (x.2.1 < l) }
        let b := partsFrom got 0 6145
        match len with
        | none => s.fillReqs 4
        | some l =>
          if b.length < l then
            let s := s.fillReqs 4
            if 25165824 < l ∨ s.sec.recover.any (fun r => r.reqs.isEmpty) then s.nextSource (some k) else s
          else
            let b := b.take l
            if imageCheck s.sec.svn b = none then
              (if s.sec.flash.any fun j => j.why.isImage then s else (s.modRec fun r => { r with reqs := [] }).addFlash (imageJob b 16 none true))
            else s.nextSource (some k)

/-- IMAGE (R469). -/
def image (k : Nat) (f : TFrame) (t : Nat) (s : State) : State :=
  let s := s.tickTo t
  if !s.imageLink k ∨ !ecrcOk 0x0A f ∨ !headLegal 0x0A f ∨ f.dest ≠ 0 ∨ f.src ≠ 0 then s
  else if f.payload = [] then s.imageAnswer k f
  else s.imagePart k f

/-- IMAGE_REQUEST_REPEAT (R469): an unanswered request is repeated after 1 ms, three times; then the next link is tried. -/
def imageRequestRepeat (k t : Nat) (s : State) : State :=
  let s := s.tickTo t
  match s.sec.recover with
  | none => s
  | some r =>
    match r.reqs.find? fun q => decide (q.2.2.2 + 13000 ≤ s.aon) with
    | none => s
    | some q =>
      if r.link ≠ k then s
      else if 3 ≤ q.2.2.1 then s.nextSource (some k)
      else
        (s.modRec fun r => { r with reqs := r.reqs.map fun x => if x = q then (q.1, q.2.1, q.2.2.1 + 1, s.aon) else x }).sendImage k q.1 q.2.1 []

/-- RECOVERY_RETRY (R468): every 1 s all sources are tried again. -/
def recoveryRetry (t : Nat) (s : State) : State :=
  let s := s.tickTo t
  match s.sec.recover with
  | some r => if r.link = 18 ∧ r.since + 13000000 ≤ s.aon then s.nextSource none else s
  | none => s

def execImage (link : Fin 18) (fr : TFrame) (t : Nat) (s : State) : Host.Outcome State Fault Refusal := .next (image link fr t s)
def execImageRequestRepeat (link : Fin 18) (t : Nat) (s : State) : Host.Outcome State Fault Refusal := .next (imageRequestRepeat link t s)
def execRecoveryRetry (t : Nat) (s : State) : Host.Outcome State Fault Refusal := .next (recoveryRetry t s)

end Sys2Proof.Machine
end

