-- ==== Sys2Proof/Machine/Mailbox.lean ====
section
/-!
DEFINITION. Transport units at the mailboxes (R415 to R418, R422, R428 to R430), the commands in order, the I3C target (R421), and the end
of a Parcel reset (R433, R434).
-/

namespace Sys2Proof.Machine

/-! ### Executing commands (R416, R417, R424) -/

/-- The effect of a command whose checks 1 to 5 of R425 hold. -/
def runCmd (m : Nat) (u : MUnit) (s : State) : Reply :=
  match u.code.toNat with
  | 0x0001 => cmdSync m u s
  | 0x0002 => cmdEcho m u s
  | 0x0003 => cmdRelay m u s
  | 0x0010 => cmdStageWrite m u s
  | 0x0011 => cmdStageRead m u s
  | 0x0020 => cmdParcelInfo m u s
  | 0x0021 => cmdParcelReset m u s
  | 0x0030 => cmdRecipeBind m u s
  | 0x0031 => cmdRecipeUnbind m u s
  | 0x0040 => cmdPageAlloc m u s
  | 0x0041 => cmdPageFree m u s
  | 0x0042 => cmdPageEntry m u s
  | 0x0043 => cmdDataIn m u s
  | 0x0044 => cmdDataOut m u s
  | 0x0050 => cmdMaskLoad m u s
  | 0x0051 => cmdGrammarLoad m u s
  | 0x0052 => cmdCodebookLoad m u s
  | 0x0053 => cmdWindowSet m u s
  | 0x0060 => cmdGraphRun m u s
  | 0x0070 => cmdNotifyConfig m u s
  | 0x0071 => cmdDoorbellSet m u s
  | 0x0080 => cmdRegRead m u s
  | 0x0081 => cmdCairnRead m u s
  | 0x0090 => cmdPlanLoad m u s
  | 0x0091 => cmdOverlayApply m u s
  | 0x00A0 => cmdSharePublish m u s
  | 0x00A1 => cmdShareGrant m u s
  | 0x00A2 => cmdShareRevoke m u s
  | 0x00A3 => cmdPageReload m u s
  | 0x00B0 => cmdTpertAccess m u s
  | 0x00C0 => cmdImageUpdate m u s
  | 0x00C1 => cmdAttest m u s
  | 0x00C2 => cmdDebugUnlock m u s
  | _ => s.no 0x01B1#16

/-- Sends every unacknowledged entry, oldest first (R418, R430). -/
def State.sendQueue (s : State) (m : Nat) : State :=
  match (s.box m).bound with
  | none => s
  | some dst => (s.box m).queue.foldl (fun s e => s.sendUnit dst 3 m e.1 0 0 e.2.bytes) (s.modBox m fun b => { b with resent := s.aon })

/-- Executes a command: its checks, its effect, its response unless it keeps it. After the first SYNC the notifications that were held
leave (R418). -/
def State.execute (s : State) (m : Nat) (u : MUnit) : State :=
  let first := (s.box m).bound.isNone
  let s := (s.boxCount m .cmds).modBox m fun b => { b with next := u.seq + 1 }
  match s.cmdCheck m u.code.toNat u.payload with
  | some st => s.respond m u st []
  | none =>
    let r := runCmd m u (s.modBox m fun b => { b with wait := some u })
    match r.2 with
    | none => r.1
    | some x =>
      let s := r.1.respond m u x.1 x.2
      if first ∧ u.code = 1#16 then s.sendQueue m else s

/-- A command that may go on once the one before it has been answered: a SYNC that waits, else the held command at NEXT. -/
def State.pumpOneBox (s : State) (m : Nat) : Option State :=
  let b := s.box m
  if b.wait.isSome then none
  else match b.sync with
    | u :: r => some ((s.modBox m fun b => { b with sync := r, held := [], cache := [] }).execute m u)
    | [] => (b.held.find? fun h => h.u.seq == b.next).map fun h =>
      (s.modBox m fun b => { b with held := b.held.erase h }).execute m h.u

def State.pumpBox (s : State) (m : Nat) : Nat → State
  | 0 => s
  | n + 1 => match s.pumpOneBox m with
    | some s' => State.pumpBox s' m n
    | none => s

/-- Every mailbox executes what may execute: at most what it holds. -/
def State.pumpBoxes (s : State) : State :=
  (List.range 17).foldl (fun s m => s.pumpBox m ((s.box m).sync.length + (s.box m).held.length)) s

/-! ### Commands that wait -/

/-- Whether a command that keeps its response is tried again: PAGE_ALLOC, DATA_IN, GRAPH_RUN. -/
def triedAgain (op : Nat) : Bool := op == 0x0040 || op == 0x0043 || op == 0x0060

/-- Tries the command of a mailbox again that waits for frames, a page's flip, tracker entries or a generation. -/
def State.retryBox (s : State) (m : Nat) : State :=
  match (s.box m).wait with
  | none => s
  | some u =>
    let op := u.code.toNat
    if triedAgain op then
      let r := runCmd m u s
      match r.2 with
      | some x => r.1.respond m u x.1 x.2
      | none => s
    else if op = 0x0041 then (if s.mem.unmapWait.any fun w => w.1 == m && w.2.2 then s else s.respond m u 0 [])
    else if op = 0x00A2 then (if s.mem.unmapWait.any fun w => !w.2.2 then s else s.respond m u 0 [])
    else s

/-- Unmaps and commands that waited go on where they can. -/
def State.retry (s : State) : State := ((List.range 17).foldl State.retryBox s.retryUnmaps).pumpBoxes

/-! ### Units as they come (R415) -/

/-- Whether the mailboxes work: after the boot, or in recovery the maintenance mailbox alone (R457, R468). -/
def State.boxWorks (s : State) (m : Nat) : Bool := s.pwr.powered && (s.sec.boot == 7 || (s.inRecovery && m == 16))

/-- A unit is dropped. -/
def State.dropUnit (s : State) (m : Nat) : State := s.boxCount (min 16 m) .dropped

/-- A COMMAND by its distance from NEXT (R416). A SYNC counts whatever its checks say; a command to the mailbox of a Parcel that is being
reset is answered at once (R434). -/
def State.command (s : State) (m : Nat) (u : MUnit) : State :=
  let b := s.box m
  let d := serialDist 16 u.seq.toNat b.next.toNat
  let hold (gap : Bool) : State :=
    if b.held.any fun h => h.u.seq == u.seq then s
    else s.modBox m fun b => { b with held := b.held ++ [{ u := u, at' := s.aon, gap := gap }] }
  if u.code = 1#16 then
    (if b.wait.isSome ∧ !s.resettingFor m 1 u.payload then s.modBox m fun b => { b with sync := b.sync ++ [u] }
     else (s.modBox m fun b => { b with held := [], cache := [] }).execute m u)
  else if d = 0 then
    (if b.wait.isSome ∧ !(m < 16 ∧ (s.parcel m).st = .resetting) then hold false else s.execute m u)
  else if 0 < d then (if d ≤ 63 then hold true else s.answer m u 0x02B0#16 [])
  else if -64 ≤ d then
    match b.cache.find? fun r => r.seq == u.seq with
    | some r => (s.boxCount m .repeats).sendUnit u.source 2 m r.seq r.code r.tag r.pay
    | none => s
  else s.answer m u 0x01B3#16 []

/-- A NOTIFY_ACK: the entries up to its SEQ leave the queue (R430). -/
def State.ackNotes (s : State) (m : Nat) (u : MUnit) : State :=
  s.modBox m fun b => { b with queue := b.queue.filter fun e => decide (0 < serialDist 16 e.1.toNat u.seq.toNat) }

/-- A unit reaches a mailbox: checks 1 to 3 of R415, then what it is. -/
def State.receive (s : State) (u : MUnit) : State :=
  let m := unitBox u
  if !s.boxWorks m then s
  else if !unitWhole u ∨ 16 < m ∨ !s.permitted m u.source then s.dropUnit m
  else if !unitLegal u then s.answer m u 0x01B0#16 []
  else if u.ukind = 1#8 then (s.command m u).pumpBoxes
  else if u.ukind = 4#8 then s.ackNotes m u
  else s

/-- A unit that carries the command of an opcode. -/
def mboxCommand (op : BitVec 16) (u : MUnit) (t : Nat) (s : State) : State := (s.tickTo t).receive { u with code := op }

/-! ### Timers -/

/-- HELD_COMMAND_TIMEOUT (R416). -/
def heldCommandTimeout (m : Nat) (seq : BitVec 16) (t : Nat) (s : State) : State :=
  let s := s.tickTo t
  match (s.box m).held.find? fun h => h.u.seq == seq && h.gap && decide (h.at' + 13000 ≤ s.aon) with
  | some h => (s.modBox m fun b => { b with held := b.held.erase h }).answer m h.u 0x07A1#16 []
  | none => s

/-- RELAY_TIMEOUT (R422). -/
def relayTimeout (m t : Nat) (s : State) : State :=
  let s := s.tickTo t
  match (s.box m).relay, (s.box m).wait with
  | some (_, since), some u =>
    if s.aon < since + 26000 ∨ u.code ≠ 3#16 then s
    else ((s.modBox m fun b => { b with relay := none }).respond m u 0x0533#16 []).pumpBoxes
  | _, _ => s

/-- COALESCE_TIMEOUT (R428). -/
def coalesceTimeout (m vec ncode t : Nat) (s : State) : State :=
  let s := s.tickTo t
  match (s.box m).pendN.find? fun x => x.vector == vec && x.ncode == ncode with
  | some x => if x.first + tget 0 (s.box m).ctime vec ≤ s.aon then s.flushNote m vec ncode else s
  | none => s

/-- NOTIFY_RESEND_TIMER (R430). -/
def notifyResendTimer (m t : Nat) (s : State) : State :=
  let s := s.tickTo t
  if s.aon < (s.box m).resent + 13000 then s else s.sendQueue m

/-! ### The end of a Parcel reset (R433, R434) -/

/-- Whether every step of a reset has finished. -/
def State.resetDone (s : State) (p : Nat) (r : PReset) : Bool :=
  (List.range 64).all (fun n => !(s.parcel p).stations.getLsbD n || (s.stn n).mode == .idle)
    && !(s.mem.moves.any fun m => m.parcel == p)
    && !(r.erases.any fun x => s.mem.zeroing.contains x || s.mem.wjobs.any fun j => frameKey j.stack j.frame == x)

/-- The Stations of a Parcel that the configuration no longer declares enter Off (R487). -/
def State.stationsOff (s : State) (p : Nat) : State :=
  (List.range 64).foldl (fun s n => if (s.parcel p).stations.getLsbD n then
    { s with pwr := { s.pwr with waking := tdel s.pwr.waking n } }.setSpow n .off else s) s

/-- Whether an apply in progress leaves a Parcel undeclared. -/
def State.removes (s : State) (p : Nat) : Bool := match s.plan.apply with
  | some a => let c := s.plan.target a; (stationsUnder c.1 c.2 p).isNone
  | none => false

/-- PARCEL_RESET_COMPLETE (R433). -/
def parcelResetComplete (p t : Nat) (s : State) : State :=
  let s := s.tickTo t
  match s.presets.find? fun x => x.1 == p with
  | none => s
  | some (_, r) =>
    if (s.parcel p).st ≠ .resetting ∨ !s.resetDone p r then s
    else
      let s := { s with presets := tdel s.presets p }.boxCount p .resets
      let pay := natLe 1 p ++ natLe 1 (b2n r.purge)
      let s :=
        if r.forPlan ∧ s.removes p then
          ((s.stationsOff p).modParcel p fun q => { q with st := .absent }).notify 16 0x0002 pay
        else
          let n := s.drawNonce
          let s := n.1.modParcel p fun q => { q with st := .active, nonce := n.2, serial := 1 }
          let s := s.notify p 0x0002 pay
          if r.byM then s.notify 16 0x0002 pay else s
      (r.units.foldl (fun s x => s.respond x.1 x.2 0 []) s).pumpBoxes

/-! ### The I3C target (R421, R458) -/

/-- Whether the target takes part on the bus. -/
def State.i3cUp (s : State) : Bool := s.pwr.powered

/-- A private write carries one unit; a halted Bezel accepts none. -/
def i3cPrivateWrite (u : MUnit) (t : Nat) (s : State) : State :=
  let s := s.tickTo t
  if !s.i3cUp then s
  else if s.sec.halted then s.emit .i3cNack
  else
    (s.emit .i3cAck).receive { u with source := { u.source with transport := .i3c } }

/-- A private read returns the next pending unit, or one with UKIND EMPTY. -/
def i3cPrivateRead (t : Nat) (s : State) : State :=
  let s := s.tickTo t
  if !s.i3cUp then s
  else if s.sec.halted then s.emit .i3cNack
  else match s.i3c.pending with
    | x :: r => { s with i3c := { s.i3c with pending := r } }.emit (.i3c x.2)
    | [] => s.emit (.i3c (unitBytes 0 0 0 0 0 []))

def State.i3cSet (s : State) (f : I3c → I3c) : State := if s.i3cUp then { s with i3c := f s.i3c } else s

/-- The most significant byte first, as the bus carries numbers. -/
def beBytes (k x : Nat) : List Byte := (natLe k x).reverse

def State.i3cSay (s : State) (bs : List Byte) : State := if s.i3cUp then s.emit (.i3c bs) else s

/-- SETMWL and SETMRL below 1,044 are refused. -/
def State.i3cLen (s : State) (v : Nat) (f : I3c → I3c) : State :=
  if !s.i3cUp then s else if v < 1044 then s.emit .i3cNack else (s.i3cSet f).emit .i3cAck

/-- The vendor bits of GETSTATUS (R458). -/
def State.vendorBits (s : State) : Nat :=
  if s.sec.halted then 1 else if s.inRecovery then 2 else if s.sec.open' then 3 else 0

/-- The static address (R421). -/
def State.i3cStatic (s : State) : Nat := 0x3A + s.pwr.modsel.toNat

end Sys2Proof.Machine
end

