-- ==== Sys2Proof/Machine/MboxEvents.lean ====
section
/-!
DEFINITION. The meanings of the mailbox rows (R414 to R434), of the I3C rows (R421), and of the rows whose effect lets commands that wait
go on.
-/

namespace Sys2Proof.Machine

/-! ### The commands (R424) -/

def execSync (u : MUnit) (t : Nat) (s : State) : Host.Outcome State Fault Refusal := .next (mboxCommand 0x0001#16 u t s)
def execEcho (u : MUnit) (t : Nat) (s : State) : Host.Outcome State Fault Refusal := .next (mboxCommand 0x0002#16 u t s)
def execRelay (u : MUnit) (t : Nat) (s : State) : Host.Outcome State Fault Refusal := .next (mboxCommand 0x0003#16 u t s)
def execStageWrite (u : MUnit) (t : Nat) (s : State) : Host.Outcome State Fault Refusal := .next (mboxCommand 0x0010#16 u t s)
def execStageRead (u : MUnit) (t : Nat) (s : State) : Host.Outcome State Fault Refusal := .next (mboxCommand 0x0011#16 u t s)
def execParcelInfo (u : MUnit) (t : Nat) (s : State) : Host.Outcome State Fault Refusal := .next (mboxCommand 0x0020#16 u t s)
def execParcelReset (u : MUnit) (t : Nat) (s : State) : Host.Outcome State Fault Refusal := .next (mboxCommand 0x0021#16 u t s)
def execRecipeBind (u : MUnit) (t : Nat) (s : State) : Host.Outcome State Fault Refusal := .next (mboxCommand 0x0030#16 u t s)
def execRecipeUnbind (u : MUnit) (t : Nat) (s : State) : Host.Outcome State Fault Refusal := .next (mboxCommand 0x0031#16 u t s)
def execPageAlloc (u : MUnit) (t : Nat) (s : State) : Host.Outcome State Fault Refusal := .next (mboxCommand 0x0040#16 u t s)
def execPageFree (u : MUnit) (t : Nat) (s : State) : Host.Outcome State Fault Refusal := .next (mboxCommand 0x0041#16 u t s)
def execPageEntry (u : MUnit) (t : Nat) (s : State) : Host.Outcome State Fault Refusal := .next (mboxCommand 0x0042#16 u t s)
def execDataIn (u : MUnit) (t : Nat) (s : State) : Host.Outcome State Fault Refusal := .next (mboxCommand 0x0043#16 u t s)
def execDataOut (u : MUnit) (t : Nat) (s : State) : Host.Outcome State Fault Refusal := .next (mboxCommand 0x0044#16 u t s)
def execMaskLoad (u : MUnit) (t : Nat) (s : State) : Host.Outcome State Fault Refusal := .next (mboxCommand 0x0050#16 u t s)
def execGrammarLoad (u : MUnit) (t : Nat) (s : State) : Host.Outcome State Fault Refusal := .next (mboxCommand 0x0051#16 u t s)
def execCodebookLoad (u : MUnit) (t : Nat) (s : State) : Host.Outcome State Fault Refusal := .next (mboxCommand 0x0052#16 u t s)
def execWindowSet (u : MUnit) (t : Nat) (s : State) : Host.Outcome State Fault Refusal := .next (mboxCommand 0x0053#16 u t s)
def execGraphRun (u : MUnit) (t : Nat) (s : State) : Host.Outcome State Fault Refusal := .next (mboxCommand 0x0060#16 u t s)
def execNotifyConfig (u : MUnit) (t : Nat) (s : State) : Host.Outcome State Fault Refusal := .next (mboxCommand 0x0070#16 u t s)
def execDoorbellSet (u : MUnit) (t : Nat) (s : State) : Host.Outcome State Fault Refusal := .next (mboxCommand 0x0071#16 u t s)
def execRegRead (u : MUnit) (t : Nat) (s : State) : Host.Outcome State Fault Refusal := .next (mboxCommand 0x0080#16 u t s)
def execCairnRead (u : MUnit) (t : Nat) (s : State) : Host.Outcome State Fault Refusal := .next (mboxCommand 0x0081#16 u t s)
def execPlanLoad (u : MUnit) (t : Nat) (s : State) : Host.Outcome State Fault Refusal := .next (mboxCommand 0x0090#16 u t s)
def execOverlayApply (u : MUnit) (t : Nat) (s : State) : Host.Outcome State Fault Refusal := .next (mboxCommand 0x0091#16 u t s)
def execSharePublish (u : MUnit) (t : Nat) (s : State) : Host.Outcome State Fault Refusal := .next (mboxCommand 0x00A0#16 u t s)
def execShareGrant (u : MUnit) (t : Nat) (s : State) : Host.Outcome State Fault Refusal := .next (mboxCommand 0x00A1#16 u t s)
def execShareRevoke (u : MUnit) (t : Nat) (s : State) : Host.Outcome State Fault Refusal := .next (mboxCommand 0x00A2#16 u t s)
def execPageReload (u : MUnit) (t : Nat) (s : State) : Host.Outcome State Fault Refusal := .next (mboxCommand 0x00A3#16 u t s)
def execTpertAccess (u : MUnit) (t : Nat) (s : State) : Host.Outcome State Fault Refusal := .next (mboxCommand 0x00B0#16 u t s)
def execImageUpdate (u : MUnit) (t : Nat) (s : State) : Host.Outcome State Fault Refusal := .next (mboxCommand 0x00C0#16 u t s)
def execAttest (u : MUnit) (t : Nat) (s : State) : Host.Outcome State Fault Refusal := .next (mboxCommand 0x00C1#16 u t s)
def execDebugChallenge (u : MUnit) (t : Nat) (s : State) : Host.Outcome State Fault Refusal := .next (mboxCommand 0x00C2#16 u t s)
def execDebugAuthorise (u : MUnit) (t : Nat) (s : State) : Host.Outcome State Fault Refusal := .next (mboxCommand 0x00C2#16 u t s)

/-- NOTIFY_ACK (R430). -/
def notifyAck (u : MUnit) (t : Nat) (s : State) : State := (s.tickTo t).receive { u with ukind := 4 }

def execNotifyAck (u : MUnit) (t : Nat) (s : State) : Host.Outcome State Fault Refusal := .next (notifyAck u t s)

/-! ### Timers and resets -/

def execHeldCommandTimeout (m : Fin 17) (seq : BitVec 16) (t : Nat) (s : State) : Host.Outcome State Fault Refusal :=
  .next (heldCommandTimeout m seq t s)
def execRelayTimeout (m : Fin 17) (t : Nat) (s : State) : Host.Outcome State Fault Refusal := .next (relayTimeout m t s)
def execCoalesceTimeout (m : Fin 17) (vec : BitVec 6) (ncode : BitVec 16) (t : Nat) (s : State) : Host.Outcome State Fault Refusal :=
  .next (coalesceTimeout m vec.toNat ncode.toNat t s)
def execNotifyResendTimer (m : Fin 17) (t : Nat) (s : State) : Host.Outcome State Fault Refusal := .next (notifyResendTimer m t s)
def execParcelResetComplete (p : Fin 16) (t : Nat) (s : State) : Host.Outcome State Fault Refusal := .next (parcelResetComplete p t s)

/-! ### The I3C sideband (R421, R458) -/

/-- ENEC: bit 0 of the event byte enables in-band interrupts. -/
def enec (events : BitVec 8) (s : State) : State := s.i3cSet fun x => if events.getLsbD 0 then { x with ibi := true } else x

/-- DISEC. -/
def disec (events : BitVec 8) (s : State) : State := s.i3cSet fun x => if events.getLsbD 0 then { x with ibi := false } else x

/-- RSTDAA. -/
def rstdaa (s : State) : State := s.i3cSet fun x => { x with dynAddr := none }

/-- ENTDAA: a target without a dynamic address takes the one assigned. -/
def entdaa (addr : BitVec 7) (s : State) : State := s.i3cSet fun x => if x.dynAddr.isNone then { x with dynAddr := some addr } else x

/-- SETDASA: addressed by the static address. -/
def setdasa (static addr : BitVec 7) (s : State) : State :=
  s.i3cSet fun x => if static.toNat = s.i3cStatic ∧ x.dynAddr.isNone then { x with dynAddr := some addr } else x

/-- SETNEWDA: addressed by the dynamic address. -/
def setnewda (addr : BitVec 7) (s : State) : State := s.i3cSet fun x => if x.dynAddr.isSome then { x with dynAddr := some addr } else x

def setmwl (v : BitVec 16) (s : State) : State := s.i3cLen v.toNat fun x => { x with mwl := v.toNat }
def setmrl (v : BitVec 16) (s : State) : State := s.i3cLen v.toNat fun x => { x with mrl := v.toNat }
def getmwl (s : State) : State := s.i3cSay (beBytes 2 s.i3c.mwl)
def getmrl (s : State) : State := s.i3cSay (beBytes 2 s.i3c.mrl)
def getpid (s : State) : State := s.i3cSay (beBytes 6 Config.i3cPid.toNat)
/-- BCR is 0x06. -/
def getbcr (s : State) : State := s.i3cSay [0x06#8]
/-- DCR is 0x00. -/
def getdcr (s : State) : State := s.i3cSay [0x00#8]
/-- GETSTATUS: the vendor bits, then bits [7:0], which the spec does not give. -/
def getstatus (s : State) : State := s.i3cSay [BitVec.ofNat 8 s.vendorBits, Config.i3cStatusLow]

def execI3cPrivateWrite (u : MUnit) (t : Nat) (s : State) : Host.Outcome State Fault Refusal := .next (i3cPrivateWrite u t s)
def execI3cPrivateRead (t : Nat) (s : State) : Host.Outcome State Fault Refusal := .next (i3cPrivateRead t s)
def execEnec (events : BitVec 8) (s : State) : Host.Outcome State Fault Refusal := .next (enec events s)
def execDisec (events : BitVec 8) (s : State) : Host.Outcome State Fault Refusal := .next (disec events s)
def execRstdaa (s : State) : Host.Outcome State Fault Refusal := .next (rstdaa s)
def execEntdaa (addr : BitVec 7) (s : State) : Host.Outcome State Fault Refusal := .next (entdaa addr s)
def execSetdasa (static addr : BitVec 7) (s : State) : Host.Outcome State Fault Refusal := .next (setdasa static addr s)
def execSetnewda (addr : BitVec 7) (s : State) : Host.Outcome State Fault Refusal := .next (setnewda addr s)
def execSetmwl (v : BitVec 16) (s : State) : Host.Outcome State Fault Refusal := .next (setmwl v s)
def execSetmrl (v : BitVec 16) (s : State) : Host.Outcome State Fault Refusal := .next (setmrl v s)
def execGetmwl (s : State) : Host.Outcome State Fault Refusal := .next (getmwl s)
def execGetmrl (s : State) : Host.Outcome State Fault Refusal := .next (getmrl s)
def execGetpid (s : State) : Host.Outcome State Fault Refusal := .next (getpid s)
def execGetbcr (s : State) : Host.Outcome State Fault Refusal := .next (getbcr s)
def execGetdcr (s : State) : Host.Outcome State Fault Refusal := .next (getdcr s)
def execGetstatus (s : State) : Host.Outcome State Fault Refusal := .next (getstatus s)

/-! ### Rows after which waiting commands go on -/

/-- GRAPH_INSTANTIATE (R347): a queued request is admitted, a request in DECODE begins its set's next step, and a GRAPH_RUN that waits is
tried again. -/
def graphInstantiate (r t : Nat) (s : State) : State :=
  let s := s.tickTo t
  let s := match (s.req r).st with
    | .queued => s.admitNow r
    | .decode => s.decodeStep r
    | _ => s
  s.retry

def execPageMoveFlip (stack : Fin 36) (ue : Option (BitVec 15)) (t : Nat) (s : State) : Host.Outcome State Fault Refusal :=
  .next (pageMoveFlip stack (ue.map (·.toNat)) t s).retry
def execFrameZeroingComplete (stack : Fin 36) (frame : Nat) (s : State) : Host.Outcome State Fault Refusal :=
  .next (frameZeroingComplete stack frame s).retry
def execUnmapComplete (rpage : BitVec 23) (s : State) : Host.Outcome State Fault Refusal := .next (s.unmapEnd rpage.toNat).retry
def execGraphInstantiate (req : BitVec 16) (t : Nat) (s : State) : Host.Outcome State Fault Refusal :=
  .next (graphInstantiate req.toNat t s)
def execFuseBlowComplete (t : Nat) (s : State) : Host.Outcome State Fault Refusal := .next (fuseBlowComplete t s).pumpBoxes
def execLmsCounterWriteDone (t : Nat) (s : State) : Host.Outcome State Fault Refusal := .next (lmsCounterWriteDone t s).pumpBoxes
def execLowerTreeComplete (t : Nat) (s : State) : Host.Outcome State Fault Refusal := .next (lowerTreeComplete t s).pumpBoxes
def execDebugPortOpen (t : Nat) (s : State) : Host.Outcome State Fault Refusal := .next (debugPortOpen t s).pumpBoxes
def execQuiescentSwitch (t : Nat) (s : State) : Host.Outcome State Fault Refusal := .next (quiescentSwitch t s).pumpBoxes
def execApplyQuiesceTimeout (t : Nat) (s : State) : Host.Outcome State Fault Refusal := .next (applyQuiesceTimeout t s).pumpBoxes

end Sys2Proof.Machine
end

