-- ==== Sys2Proof/Machine/NvDone.lean ====
section
/-!
DEFINITION. The ends of the writes of the configuration flash and of the key store, and what follows them (R446, R454, R459, R462, R467,
R468, R523).
-/

namespace Sys2Proof.Machine

/-- The command of a job is answered. -/
def State.answerJob (s : State) (j : FlashJob) (st : Status) : State := match j.unit with
  | some u => s.respond j.mbox u st []
  | none => s

/-- The last operation of an image's job: the region is read back, the command answered, and in recovery the image booted (R467, R468). -/
def State.imageWritten (s : State) (j : FlashJob) (b : List Byte) : State :=
  let r := s.imageReadBack b
  match r.2 with
  | some st =>
    let s := r.1.answerJob j st
    (match j.why, s.sec.recover with
     | .image _ true, some x => if j.unit.isNone then s.nextSource (some x.link) else s
     | _, _ => s)
  | none => let s := r.1.answerJob j 0; if s.inRecovery then s.bootImage else s

/-- What follows the last operation of a job: a plan's digest is to be recorded, an image is read back, a page of the Cairn is written. -/
def State.flashJobEnd (s : State) (j : FlashJob) : State :=
  match j.why with
  | .image b _ => s.imageWritten j b
  | .cairn n => s.cairnWritten n
  | w => s.addKey (.plan w) j.mbox j.unit

/-- CONFIG_FLASH_WRITE_DONE (R446, R454, R467, R523). -/
def configFlashWriteDone (t : Nat) (s : State) : State :=
  let s := s.tickTo t
  match s.sec.flash with
  | [] => s
  | j :: r =>
    if !j.busy then s
    else
      let s := s.flashOpDone j
      let s := if j.left ≤ 1 then (s.modSec fun x => { x with flash := r }).flashJobEnd j else s
      s.startFlash.pumpBoxes

/-- What follows a key-store write: a slot is filled, or a plan stored, and the command is answered. -/
def State.keyWriteEnd (s : State) (w : KeyWhy) (m : Nat) (u : Option MUnit) : State :=
  match w, u with
  | .slot role k, some u => (s.slotWritten role k).respond m u 0 []
  | .slot role k, none => s.slotWritten role k
  | .plan w, some u => s.planStored w u
  | .plan _, none => s

/-- KEY_STORE_WRITE_DONE (R454, R459, R462). -/
def keyStoreWriteDone (t : Nat) (s : State) : State :=
  let s := s.tickTo t
  if !s.sec.keyBusy then s
  else match s.sec.keyQ with
    | [] => s
    | (w, m, u) :: r => ((s.modSec fun x => { x with keyQ := r, keyBusy := false }).keyWriteEnd w m u).startKey.pumpBoxes

def execConfigFlashWriteDone (t : Nat) (s : State) : Host.Outcome State Fault Refusal := .next (configFlashWriteDone t s)
def execKeyStoreWriteDone (t : Nat) (s : State) : Host.Outcome State Fault Refusal := .next (keyStoreWriteDone t s)

end Sys2Proof.Machine
end

