-- ==== Sys2Proof/Machine/Supply.lean ====
section
/-!
DEFINITION. Supply states (R493 to R498), and the faults that reset the module (R485, R507, R510).
-/

namespace Sys2Proof.Machine

/-! ### SAG (R494) -/

def State.setSupply (s : State) (x : Supply) (vin : BitVec 16) : State := { s with pwr := { s.pwr with supply := x, vin := vin } }

/-- SAG is entered: counted, and recorded. -/
def State.sag (s : State) (vin : BitVec 16) : State :=
  ((s.setSupply .sag vin).modCount .sagEvents).cairnEvent 0x0004 0 (natLe 2 vin.toNat)

/-- NORMAL is entered: the supply limit is lifted, and what waited on the sag rule starts. -/
def State.sagOver (s : State) (vin : BitVec 16) : State :=
  ((s.setSupply .normal vin).limit 2 fun c => { c with supply := false }).startNv

/-- SAG_ENTER: the input falls below 40.5 V. -/
def sagEnter (vin : BitVec 16) (t : Nat) (s : State) : State :=
  let s := s.tickTo t
  if s.pwr.powered ∧ s.pwr.supply = .normal ∧ vin.toNat < 4050 then s.sag vin else s

/-- SAG_END: the input rises above 41.5 V. -/
def sagEnd (vin : BitVec 16) (t : Nat) (s : State) : State :=
  let s := s.tickTo t
  if s.pwr.powered ∧ s.pwr.supply = .sag ∧ 4150 < vin.toNat then s.sagOver vin else s

/-- BOOST_WITHHELD: the input falls below 40.0 V. -/
def boostWithheld (vin : BitVec 16) (t : Nat) (s : State) : State :=
  let s := s.tickTo t
  if s.pwr.powered ∧ s.pwr.supply = .sag ∧ vin.toNat < 4000 then
    { s with pwr := { s.pwr with vin := vin } }.limit 2 fun c => { c with supply := true }
  else s

/-! ### ABORT (R496, R497) -/

/-- Every request for which `p` holds ends with a status. -/
def State.endWhere (s : State) (st : Status) (p : Request → Bool) : State :=
  (tkeys s.reqs).foldl (fun s r => if p (s.req r) then s.requestEnd r st else s) s

/-- Whether a Station runs a task, or runs one again. -/
def Station.busy (x : Station) : Bool := x.mode == .running || x.mode == .rerun

/-- A Station as ABORT is entered: its task is killed and it is scrubbed, or it enters Parked at once. -/
def State.abortStn (s : State) (n : Nat) : State :=
  if (s.stn n).busy then s.killTask n 0x0420#16
  else if (s.stn n).mode = .idle ∧ (s.spow n = .running ∨ s.spow n = .ready) then s.setSpow n .parked
  else s

/-- ABORT_ENTER: the input falls below 38.0 V. -/
def abortEnter (vin : BitVec 16) (t : Nat) (s : State) : State :=
  let s := s.tickTo t
  if !s.pwr.powered ∨ s.pwr.supply = .abort ∨ 3800 ≤ vin.toNat then s
  else
    let s := ((s.setSupply .abort vin).modCount .aborts).cairnEvent 0x0005 0 (natLe 2 vin.toNat)
    let s := s.limit 2 fun c => { c with supply := true }
    let s := s.endWhere 0x0420#16 fun _ => true
    let s := (List.range 17).foldl (fun s m =>
      if m = 16 ∨ (s.parcel m).st ≠ .absent then s.notify m 0x0040 (natLe 2 vin.toNat) else s) s
    (List.range 64).foldl State.abortStn s

/-- The Stations that READY tasks name wake; a test wakes none (R287, R487). -/
def State.wakeReady (s : State) : State :=
  (List.range 64).foldl (fun s n => if s.hasTask n ∧ (s.holder n).isSome then s.wake n else s) s

/-- ABORT_EXIT: the input has stayed at 40.0 V or above for 10 ms. -/
def abortExit (vin : BitVec 16) (t : Nat) (s : State) : State :=
  let s := s.tickTo t
  if !s.pwr.powered ∨ s.pwr.supply ≠ .abort ∨ vin.toNat < 4000 then s
  else (if 4150 < vin.toNat then s.sagOver vin else s.sag vin).wakeReady

/-! ### SHUTDOWN (R498, R512) -/

/-- Whether a Girdle's die reads 110 °C or more. -/
def State.girdleHot (s : State) : Bool := (tget .reset s.dep.dies 4).band == 2 || (tget .reset s.dep.dies 5).band == 2

/-- SHUTDOWN: the input leaves [35.0, 50.0] V, or a Girdle is too hot. -/
def shutdown (vin : BitVec 16) (t : Nat) (s : State) : State :=
  let s := s.tickTo t
  if s.pwr.powered ∧ (vin.toNat < 3500 ∨ 5000 < vin.toNat ∨ s.girdleHot) then
    ({ s with pwr := { s.pwr with vin := vin } }.cairnEvent 0x0006 0 (natLe 2 vin.toNat)).shutDown
  else s

/-! ### Faults that reset the module (R485, R507, R510) -/

/-- Steps 2 to 5 of R485, with what the Cairn is to record after the boot. -/
def State.faultReset (s : State) (event : Nat) (st : Status) (detail : List Byte) : State :=
  { s with dep := { s.dep with later := s.dep.later ++ [(event, st, detail)] } }.internalReset

/-- The DETAIL of a clock or rail fault (R521). -/
def State.faultDetail (s : State) : List Byte := natLe 4 s.clk.fault.toNat ++ natLe 4 s.dep.rail.toNat

/-- CLOCK_FAULT (R485). -/
def clockFault (cause : BitVec 3) (t : Nat) (s : State) : State :=
  let s := s.tickTo t
  if !s.pwr.powered ∨ cause = 0 then s
  else
    let s := { s with clk := { s.clk with fault := s.clk.fault ||| cause.setWidth 32, refOk := s.clk.refOk && !cause.getLsbD 0,
                                          pll := s.clk.pll && !cause.getLsbD 1 } }
    s.faultReset 0x0012 0 s.faultDetail

/-- RAIL_FAULT (R510). -/
def railFault (rail : Nat) (t : Nat) (s : State) : State :=
  let s := s.tickTo t
  if !s.pwr.powered then s
  else
    let s := { s with dep := { s.dep with rail := setB s.dep.rail rail } }
    s.faultReset 0x0012 0 s.faultDetail

/-- The pair that takes over from a pair (R22). -/
def partner (k : Nat) : Nat := (k + 2) % 4

/-- LOCKSTEP_DISAGREE (R22, R507): the requests that pairs 0 and 2 admitted are those of serving ports 0 and 1. The command also stands for
an uncorrectable error in the control memory of a pair (R508). The spec does not say which pair admits a remote entry (R344): it
belongs to none (DESIGN CHOICE, log entry 87). -/
def lockstepDisagree (k t : Nat) (s : State) : State :=
  let s := s.tickTo t
  if !s.pwr.powered ∨ s.dep.pairs.getLsbD k then s
  else
    let s := s.modCount .lockstepFails
    if s.dep.pairs.getLsbD (partner k) then s.faultReset 0x0011 0x03E1#16 (natLe 1 k)
    else
      let s := { s with dep := { s.dep with pairs := setB s.dep.pairs k } }.cairnEvent 0x0011 0x03E1#16 (natLe 1 k)
      if k % 2 = 0 then s.endWhere 0x03E1#16 fun q => q.remote.isNone && q.port == k / 2 else s

/-- The pair whose duties a pair's are at present: its own, or those it has taken over (R22). -/
def State.dutyPair (s : State) (k : Nat) : Nat := if s.dep.pairs.getLsbD k then partner k else k

/-! ### The meanings -/

/-- TASK_DISPATCH (R276, R508): an uncorrectable error in the tracker's table is a lockstep failure of the pair that builds task graphs. -/
def execTaskDispatch (n : Stn) (zero : Bool) (t : Nat) (env : Env) (s : State) : Host.Outcome State Fault Refusal :=
  if env.sram = .bad then .next (lockstepDisagree (s.dutyPair 3) t s).retry else .next (taskDispatch n zero t env s)

def execSagEnter (vin : BitVec 16) (t : Nat) (s : State) : Host.Outcome State Fault Refusal := .next (sagEnter vin t s)
def execSagEnd (vin : BitVec 16) (t : Nat) (s : State) : Host.Outcome State Fault Refusal := .next (sagEnd vin t s)
def execBoostWithheld (vin : BitVec 16) (t : Nat) (s : State) : Host.Outcome State Fault Refusal := .next (boostWithheld vin t s)
def execAbortEnter (vin : BitVec 16) (t : Nat) (s : State) : Host.Outcome State Fault Refusal := .next (abortEnter vin t s).retry
def execAbortExit (vin : BitVec 16) (t : Nat) (s : State) : Host.Outcome State Fault Refusal := .next (abortExit vin t s)
def execShutdown (vin : BitVec 16) (t : Nat) (s : State) : Host.Outcome State Fault Refusal := .next (shutdown vin t s)
def execClockFault (cause : BitVec 3) (t : Nat) (s : State) : Host.Outcome State Fault Refusal := .next (clockFault cause t s)
def execRailFault (rail : BitVec 4) (t : Nat) (s : State) : Host.Outcome State Fault Refusal := .next (railFault rail.toNat t s)
def execLockstepDisagree (k : Fin 4) (t : Nat) (s : State) : Host.Outcome State Fault Refusal := .next (lockstepDisagree k t s).retry

end Sys2Proof.Machine
end

