-- ==== Sys2Proof/Machine/Depend.lean ====
section
/-!
DEFINITION. Die temperatures (R511, R512), the Benchmark and margin re-planning (R513 to R516), operating hours (R517), the Cairn's
periods (R520, R522), and the sampling windows (R72, R141, R178, R205).
-/

namespace Sys2Proof.Machine

/-! ### Dies (R511, R512) -/

def State.die (s : State) (d : Nat) : Die := tget .reset s.dep.dies d
def State.setDie (s : State) (d : Nat) (x : Die) : State := { s with dep := { s.dep with dies := fput s.dep.dies d x } }

/-- The band of R512 after a reading in 0.25 °C: 100, 110 and 97 °C are 400, 440 and 388. -/
def nextBand (old v : Nat) : Nat :=
  if 440 ≤ v ∨ (old = 2 ∧ 400 ≤ v) then 2 else if 400 ≤ v ∨ (1 ≤ old ∧ 388 ≤ v) then 1 else 0

/-- The first sensor that reports a value. -/
def sensorAt (l : List (Option Nat)) (v : Nat) : Nat := (l.findIdx? fun x => x == some v).getD 0

/-- Three readings in a row in which two sensors of a die differ by more than 8.0 °C enter the Cairn. -/
def State.sensorsApart (s : State) (d : Nat) (l : List (Option Nat)) : State :=
  let vs := l.filterMap id
  let hi := vs.foldl max 0
  let lo := vs.foldl min hi
  let x := s.die d
  if hi - lo ≤ 32 then s.setDie d { x with apart := 0 }
  else if x.apart < 2 then s.setDie d { x with apart := x.apart + 1 }
  else
    (s.setDie d { x with apart := 0 }).cairnEvent 0x0014 0
      (natLe 1 d ++ natLe 1 (sensorAt l lo) ++ natLe 1 (sensorAt l hi) ++ natLe 2 (hi - lo))

/-- A Facet at 110 °C: its tasks and their requests end, its Stations are scrubbed. -/
def State.facetStop (s : State) (f : Nat) : State :=
  (List.range 16).foldl (fun s k => if (s.stn (16 * f + k)).busy then s.killTask (16 * f + k) 0x0430#16 else s) s

/-- The actions of a die whose band changes. -/
def State.bandChange (s : State) (d old new v : Nat) : State :=
  if old = new then s
  else
    let s := s.cairnEvent 0x0013 0 (natLe 1 d ++ natLe 1 new ++ natLe 2 v)
    if d < 4 then (if new = 2 then s.facetStop d else s)
    else if new = 0 then (List.range 8).foldl (fun s i => s.startW (20 + 8 * (d - 4) + i)) s
    else s

/-- DIE_TEMP_READING: a die that reports nothing reads 110.0 °C. -/
def dieTempReading (d : Nat) (l : List (Option Nat)) (t : Nat) (s : State) : State :=
  let s := (s.tickTo t).sensorsApart d l
  let vs := l.filterMap id
  let v := if vs.isEmpty then 440 else vs.foldl max 0
  let x := s.die d
  let b := nextBand x.band v
  let s := ((s.setDie d { x with temp := v, band := b }).cairnTemp 0x0011 d v).bandChange d x.band b v
  if d < 4 then
    let s := s.dutyLoop d
    s.cairnHist 0x0016 d (Config.moduleEdges 0x0016) (lnsOfRatio (s.dutyOf d) 1)
  else s

/-! ### The Benchmark (R513, R514) -/

/-- MAINTENANCE_WINDOW_OPEN: every 1,536 units of operating hours. -/
def maintenanceWindowOpen (t : Nat) (s : State) : State :=
  let s := s.tickTo t
  let h := s.dep.hours
  let opened : Bool := match s.dep.window with
    | some (o, _) => o == h
    | none => false
  if s.sec.boot ≠ 7 ∨ h = 0 ∨ h % 1536 ≠ 0 ∨ opened then s else { s with dep := { s.dep with window := some (h, []) } }

/-- Whether a known-answer test of a Station is due or waits in the tracker (R286). -/
def State.testWaits (s : State) (n : Nat) : Bool :=
  (s.stn n).katDue || s.trk.table.any fun e => e.1 / 4096 == facetOf n && e.2.st == .ready && e.2.desc.kind == 5 && e.2.desc.stmask.testBit (n % 16)

/-- BENCHMARK_READ: a Station's replicas and ring oscillators, at a task boundary in the window after any due test; the Station is held
from dispatch for 20 µs. A Parked Station wakes to Ready. -/
def benchmarkRead (n : Nat) (slack ro : List Int) (t : Nat) (s : State) : State :=
  let s := s.tickTo t
  match s.dep.window with
  | none => s
  | some (o, done) =>
    if o + 64 ≤ s.dep.hours ∨ done.contains n ∨ (s.stn n).mode ≠ .idle ∨ s.testWaits n ∨ s.spow n = .off ∨ s.isWithdrawn n then s
    else
      let s := if s.spow n = .parked then ((s.setSpow n .ready).modCount .wakesParked) else s
      let s := (s.modCount .benchReads).modStn n fun x => { x with hold := s.aon + 260 }
      let s := { s with dep := { s.dep with window := some (o, n :: done),
                                            slack := fput s.dep.slack n (s.clk.div, s.clk.trim, slack) } }
      let s := slack.foldl (fun s v => s.cairnExt 0x0014 n v) s
      ro.foldl (fun s v => s.cairnExt 0x0015 n v) s

/-! ### Margin re-planning (R515, R516) -/

/-- The tick period T(D) in tenths of a ps. -/
def tickPs (d : Nat) : Int :=
  match d with
  | 5 => 6410
  | 6 => 7692
  | 7 => 8974
  | _ => 10256

/-- κ of replica `i` in tenths of a ps per mV. -/
def kappa (i : Nat) : Int := [9, 8, 6, 7].getD i 0

/-- S(D, v) of replica `i` in tenths of a ps. -/
def predicted (d0 v0 d v i : Nat) (sm : Int) : Int := 10 * sm + tickPs d - tickPs d0 + kappa i * ((v : Int) - v0)

/-- Whether every replica of a reading supports a divider at a trim, with at least `need` tenths of a ps. -/
def readingOk (r : Nat × Nat × List Int) (d v : Nat) (need : Int) : Bool :=
  ((List.range r.2.2.length).zip r.2.2).all fun x => decide (need ≤ predicted r.1 r.2.1 d v x.1 x.2)

/-- The slack that a divider needs: 60 ps at root/5 when that is not the present margin limit, else 50 ps. -/
def needFor (margin d : Nat) : Int := if d = 5 ∧ margin ≠ 5 then 600 else 500

/-- The smallest divider supported at some trim, with the smallest such trim. -/
def planMargin (margin : Nat) (rs : List (Nat × Nat × List Int)) : Option (Nat × Nat) :=
  (((List.range 4).flatMap fun i => (List.range 13).map fun k => (5 + i, 5 * k))).find? fun x =>
    rs.all fun r => readingOk r x.1 x.2 (needFor margin x.1)

/-- The readings of the window, but for Stations withdrawn. -/
def State.readings (s : State) (done : List Nat) : List (Nat × (Nat × Nat × List Int)) :=
  s.dep.slack.filter fun x => done.contains x.1 && !s.isWithdrawn x.1

/-- MARGIN_REPLAN: at the end of the window, 64 units after its opening. Which test the record of such a withdrawal names is not stated. -/
def marginReplan (t : Nat) (s : State) : State :=
  let s := s.tickTo t
  match s.dep.window with
  | none => s
  | some (o, done) =>
    if s.dep.hours < o + 64 then s
    else
      let s := { s with dep := { s.dep with window := none } }
      let rs := s.readings done
      match planMargin s.clk.margin (rs.map (·.2)) with
      | some x => s.setMargin x.1 x.2
      | none =>
        let bad := (rs.filter fun r => !readingOk r.2 8 60 500).map (·.1)
        let s := bad.foldl (fun s n =>
          ({ s with free := s.free + 1 }.withdraw n 0x03E4#16).cairnEvent 0x0010 0x03E4#16
            (natLe 1 n ++ natLe 1 (Config.freeNat s.free))) s
        match planMargin s.clk.margin ((s.readings done).map (·.2)) with
        | some x => s.setMargin x.1 x.2
        | none => s

/-! ### Operating hours and the Cairn's periods (R517, R520, R522) -/

/-- OPERATING_HOURS_TICK. -/
def operatingHoursTick (t : Nat) (s : State) : State :=
  let s := s.tickTo t
  if !s.pwr.powered ∨ 0xFFFFFFFF ≤ s.dep.hours then s
  else
    let h := s.dep.hours + 1
    let s := { s with dep := { s.dep with hours := h } }
    if h % 64 = 0 then s.cairnEvent 0x0000 0 [] else s

/-- Closes the open records for which `p` holds. -/
def State.closeRecords (s : State) (p : CRec → Bool) : State :=
  { s with cairn := { s.cairn with buf := s.cairn.buf.map fun r => if p r then { r with closed := true } else r } }

/-- CAIRN_RECORD_CLOSE: a state record closes 1 s after its first occurrence. -/
def cairnRecordClose (t : Nat) (s : State) : State :=
  let s := s.tickTo t
  s.closeRecords fun r => r.kind == 3 && decide (r.opened + 13000000 ≤ s.aon)

/-- CAIRN_PERIOD_END: histograms and extremes close, and a new period begins. -/
def cairnPeriodEnd (t : Nat) (s : State) : State :=
  let s := s.tickTo t
  if s.dep.hours < s.cairn.period + 1536 then s
  else
    let s := s.closeRecords fun r => r.kind == 1 || r.kind == 2
    { s with cairn := { s.cairn with period := s.dep.hours } }

/-! ### The sampling windows (R72, R141, R178, R205) -/

/-- The counters that are sampled, in the order of `SC`. -/
def sampled : List SC :=
  [.fmtElem, .fmtSat, .fmtUfl, .bspOverrun, .run, .accTiles, .accReplays, .accDepth, .recMisses, .recAudChk, .recEntries, .recSlots,
   .recAudSel, .recExpired]

def StCore.sample (c : StCore) : List Nat := sampled.map fun k => (ctrGet c.ctr k.num).toNat

/-- The increase of a sampled counter, by its place in `sampled`. -/
def increase (old new : List Nat) (i : Nat) : Nat := (new.getD i 0 + 2 ^ 64 - old.getD i 0) % 2 ^ 64

/-- The increase of a field of ACC_REPLAY_DEPTH: DEPTH1 to DEPTH3. -/
def depthIncrease (old new : List Nat) (k : Nat) : Nat :=
  bits (new.getD 7 0) (21 * k + 20) (21 * k) - bits (old.getD 7 0) (21 * k + 20) (21 * k)

/-- A Station's samples: at the window's start, at its end. -/
abbrev Samples := List (Nat × List Nat × List Nat)

def Samples.inc (l : Samples) (i : Nat) : Nat := (l.map fun x => increase x.2.1 x.2.2 i).sum

/-- The Station with the highest rate, ties to the lowest number. -/
def Samples.highest (l : Samples) (a b : Nat) : Nat :=
  (l.foldl (fun (m : Nat × Nat × Nat) x =>
    let p := increase x.2.1 x.2.2 a
    let q := increase x.2.1 x.2.2 b
    if q = 0 ∨ p * m.2.2 ≤ m.2.1 * q then m else (x.1, p, q)) ((l.head?.map (·.1)).getD 0, 0, 1)).1

/-- The Parcel's first bound recipe. -/
def Parcel.firstRecipe (q : Parcel) : Option Recipe := q.recipes.head?.map (·.2)

/-- The edges of a source of a Parcel; free where it has no recipe bound. -/
def State.parcelEdges (s : State) (p src : Nat) : List Lns :=
  match (s.parcel p).firstRecipe with
  | some r => r.edges.getD (src - 1) []
  | none => Config.moduleEdges src

/-- The rate a / b enters a histogram; a window in which b does not rise enters none (R205). -/
def State.enterRate (s : State) (p src a b : Nat) : State :=
  if b = 0 then s else s.cairnHist src p (s.parcelEdges p src) (lnsOfRatio a b)

/-- Whether a / b exceeds a limit in units of 2⁻³²; a limit of 0 disables (R346). -/
def exceeds (a b lim : Nat) : Bool := lim != 0 && b != 0 && decide (lim * b < a * 2 ^ 32)

/-- DETAIL of the pressure notifications (R427). -/
def pressure (a b lim stn what : Nat) : List Byte :=
  natLe 4 (min 0xFFFFFFFF (a * 2 ^ 32 / b)) ++ natLe 4 lim ++ natLe 1 stn ++ natLe 1 what

/-- Enters a rate and notifies when it exceeds its limit. -/
def State.rate (s : State) (p src ncode what lim : Nat) (l : Samples) (i j : Nat) : State :=
  let a := l.inc i
  let b := l.inc j
  let s := s.enterRate p src a b
  if exceeds a b lim then s.notify p ncode (pressure a b lim (l.highest i j) what) else s

/-- The replay rate and its trend (R178): eight rises in a row, and in the last window more than half the limit. -/
def State.replayRate (s : State) (p lim : Nat) (l : Samples) : State :=
  let a := l.inc 6
  let b := l.inc 5
  let q := s.parcel p
  let s := s.enterRate p 4 a b
  let rises := if b ≠ 0 ∧ q.lastRate.1 * b < a * q.lastRate.2 then q.rises + 1 else 0
  let s := s.modParcel p fun x => { x with rises := rises, lastRate := if b = 0 then x.lastRate else (a, b) }
  if exceeds a b lim then s.notify p 0x0012 (pressure a b lim (l.highest 6 5) 0)
  else if 8 ≤ rises ∧ exceeds (2 * a) b lim then s.notify p 0x0012 (pressure a b lim (l.highest 6 5) 1)
  else s

/-- The edges of DATUM_RAISE, fixed at 4, 8 and 12; it has no others. -/
def raiseEdges : List Lns := [lnsOfRatio 4 1, lnsOfRatio 8 1, lnsOfRatio 12 1] ++ (Config.moduleEdges 5).drop 3

/-- SAMPLE_WINDOW. -/
def sampleWindow (p t : Nat) (s : State) : State :=
  let s := s.tickTo t
  if (s.parcel p).st = .absent then s
  else
    let ns := (List.range 64).filter fun n => (s.parcel p).stations.getLsbD n
    let l : Samples := ns.map fun n => (n, tget [] s.dep.samples n, (s.core n).sample)
    let s := { s with dep := { s.dep with samples := l.foldl (fun (m : Tab (List Nat)) (x : Nat × List Nat × List Nat) => fput m x.1 x.2.2) s.dep.samples } }
    let lim (f : Recipe → Nat) : Nat := ((s.parcel p).firstRecipe.map f).getD 0
    let s := s.rate p 1 0x0010 0 (lim (·.limSat)) l 1 0
    let s := s.rate p 2 0x0010 1 (lim (·.limUfl)) l 2 0
    let s := s.rate p 3 0x0011 0 (lim (·.limPass)) l 3 4
    let s := s.replayRate p (lim (·.limReplay)) l
    let s := (List.range 3).foldl (fun s k =>
      s.cairnHist 5 p raiseEdges (lnsOfRatio (4 * (k + 1)) 1) (l.map fun (x : Nat × List Nat × List Nat) => depthIncrease x.2.1 x.2.2 k).sum) s
    let s := s.rate p 6 0x0013 0 (lim (·.limMiss)) l 8 9
    let s := s.enterRate p 7 (l.inc 11 - l.inc 10) (l.inc 11)
    if l.inc 12 < 2 * l.inc 13 then s.notify p 0x0014 (natLe 4 (l.inc 12) ++ natLe 4 (l.inc 13)) else s

/-! ### The meanings -/

def execDieTempReading (d : Fin 6) (l : List (Option (BitVec 10))) (t : Nat) (s : State) : Host.Outcome State Fault Refusal :=
  .next (dieTempReading d (l.map fun x => x.map (·.toNat)) t s)
def execMaintenanceWindowOpen (t : Nat) (s : State) : Host.Outcome State Fault Refusal := .next (maintenanceWindowOpen t s)
def execBenchmarkRead (n : Stn) (slack ro : List Int) (t : Nat) (s : State) : Host.Outcome State Fault Refusal :=
  .next (benchmarkRead n slack ro t s)
def execMarginReplan (t : Nat) (s : State) : Host.Outcome State Fault Refusal := .next (marginReplan t s)
def execOperatingHoursTick (t : Nat) (s : State) : Host.Outcome State Fault Refusal := .next (operatingHoursTick t s)
def execCairnRecordClose (t : Nat) (s : State) : Host.Outcome State Fault Refusal := .next (cairnRecordClose t s)
def execCairnPeriodEnd (t : Nat) (s : State) : Host.Outcome State Fault Refusal := .next (cairnPeriodEnd t s)
def execSampleWindow (p : Fin 16) (t : Nat) (s : State) : Host.Outcome State Fault Refusal := .next (sampleWindow p t s)

end Sys2Proof.Machine
end

