-- ==== Sys2Proof/Machine/Panel.lean ====
section
/-!
DEFINITION. The cages of the front panel and the links of the serving ports (R332, R537, R539, R540). Cages 0 and 1 are S0 and S1, cage
2 + k is Ck.
-/

namespace Sys2Proof.Machine

/-- The bit of a cage in PWR_CAGE_FAULT. -/
def cageBit (c : Nat) : Nat := if c < 2 then 18 + c else c - 2

def State.modPanel (s : State) (f : Panel → Panel) : State := { s with panel := f s.panel }

/-- The link of a serving port. -/
def Panel.setLink (x : Panel) (p : Nat) (up : Bool) : Panel := if p = 0 then { x with link0 := up } else { x with link1 := up }

/-- A cage loses its power; a serving port goes down with it. -/
def Panel.off (x : Panel) (c : Nat) : Panel :=
  let x := { x with power := x.power &&& ~~~ (1#20 <<< c) }
  if c < 2 then x.setLink c false else x

/-- CAGE_MODULE_INSERTED. -/
def cageModuleInserted (c t : Nat) (s : State) : State :=
  let s := s.tickTo t
  if (tkeys s.panel.present).contains c then s else s.modPanel fun x => { x with present := fput x.present c s.aon }

/-- CAGE_MODULE_REMOVED. -/
def cageModuleRemoved (c t : Nat) (s : State) : State :=
  (s.tickTo t).modPanel fun x => { x with present := tdel x.present c }.off c

/-- CAGE_POWER_ON: 10 ms after presence is detected. A cage that is switched off for its current stays off. -/
def cagePowerOn (c t : Nat) (s : State) : State :=
  let s := s.tickTo t
  match s.panel.present.find? fun x => x.1 == c with
  | some (_, since) =>
    if s.pwr.powered ∧ since + 130000 ≤ s.aon ∧ !s.panel.fault.getLsbD (cageBit c) then
      s.modPanel fun x => { x with power := setB x.power c }
    else s
  | none => s

/-- CAGE_OVERCURRENT. -/
def cageOvercurrent (c t : Nat) (s : State) : State :=
  let s := s.tickTo t
  if s.panel.power.getLsbD c then s.modPanel fun x => { x with fault := setB x.fault (cageBit c) }.off c else s

/-- PWR_CAGE_FAULT_WRITE: power returns to the cages whose bits are cleared. -/
def pwrCageFaultWrite (v : BitVec 32) (t : Nat) (s : State) : State :=
  let s := s.tickTo t
  let back (c : Nat) : Bool := v.getLsbD (cageBit c) && s.panel.fault.getLsbD (cageBit c) && (tkeys s.panel.present).contains c
  s.modPanel fun x =>
    { x with fault := w1c x.fault 0xFFFFF#32 v,
             power := (List.range 20).foldl (fun (w : BitVec 20) c => if back c then setB w c else w) x.power }

/-- SERVING_LINK_DOWN. -/
def servingLinkDown (p t : Nat) (s : State) : State := (s.tickTo t).modPanel fun x => x.setLink p false

/-- SERVING_LINK_UP: not while the ports are silent, nor in a cage that is switched off. -/
def servingLinkUp (p t : Nat) (s : State) : State :=
  let s := s.tickTo t
  if !s.pwr.powered ∨ s.pwr.silent ∨ s.panel.fault.getLsbD (cageBit p) then s else s.modPanel fun x => x.setLink p true

def execCageModuleInserted (c : Fin 20) (t : Nat) (s : State) : Host.Outcome State Fault Refusal := .next (cageModuleInserted c t s)
def execCageModuleRemoved (c : Fin 20) (t : Nat) (s : State) : Host.Outcome State Fault Refusal := .next (cageModuleRemoved c t s)
def execCagePowerOn (c : Fin 20) (t : Nat) (s : State) : Host.Outcome State Fault Refusal := .next (cagePowerOn c t s)
def execCageOvercurrent (c : Fin 20) (t : Nat) (s : State) : Host.Outcome State Fault Refusal := .next (cageOvercurrent c t s)
def execPwrCageFaultWrite (v : BitVec 32) (t : Nat) (s : State) : Host.Outcome State Fault Refusal := .next (pwrCageFaultWrite v t s)
def execServingLinkDown (p : Fin 2) (t : Nat) (s : State) : Host.Outcome State Fault Refusal := .next (servingLinkDown p t s)
def execServingLinkUp (p : Fin 2) (t : Nat) (s : State) : Host.Outcome State Fault Refusal := .next (servingLinkUp p t s)

end Sys2Proof.Machine
end

