-- ==== Sys2Proof/Machine/Traverse.lean ====
section
/-!
DEFINITION. The frames of the Traverse as they arrive (R372 to R384, R391 to R397) and what each does at its destination or on its way.
-/

namespace Sys2Proof.Machine

/-! ### Frames that await an answer (R376) -/

/-- A frame of this module is lost or refused: the task that sent it ends, and its request; a lost segment ends its request (R355). -/
def State.frameFails (s : State) (f : SentFrame) (st : Status) : State :=
  let s := { s with sent := s.sent.erase f }
  match f.req, f.stn with
  | some r, _ => s.requestEnd r 0x0590#16
  | none, some n =>
    if (s.core n).task.acksOut.contains (frameAck f.tag) then s.endTask n { st := st, unit := 5 } ((s.core n).tick) else s
  | none, none => s

/-- A frame of this module has been applied. -/
def State.frameDone (s : State) (f : SentFrame) (st : Status) : State :=
  let s := { s with sent := s.sent.erase f }
  let s := match f.stn with
    | some n => s.modCore n fun c =>
      if c.task.acksOut.contains (frameAck f.tag) then
        { c with task := { c.task with acksOut := c.task.acksOut.erase (frameAck f.tag),
                                       quals := if st = 0x0003#16 then c.task.quals ++ [st] else c.task.quals } }
      else c
    | none => s
  match f.req with
  | some r => s.shipped r
  | none => s

def State.sentTag (s : State) (tag : Nat) : Option SentFrame := s.sent.find? fun f => f.tag == tag

/-- ACK at its destination. -/
def State.ackIn (s : State) (f : TFrame) : State :=
  let st : Status := BitVec.ofNat 16 (le f.payload 0 2)
  match s.sentTag f.tag.toNat with
  | some x =>
    if x.dest ≠ f.src.toNat then s
    else if st = 0 ∨ st = 0x0003#16 then s.frameDone x st else s.frameFails x st
  | none => s

/-- DROP at its destination: for one frame, or, with TYPE 0, of every frame to a Parcel that is reset (R396). -/
def State.dropIn (s : State) (f : TFrame) : State :=
  let st : Status := BitVec.ofNat 16 (le f.payload 0 2)
  if le f.payload 2 1 = 0 then
    (s.sent.filter fun x => x.dest == f.src.toNat && x.dparcel == f.sparcel.toNat && x.parcel == f.dparcel.toNat).foldl
      (fun s x => s.frameFails x st) s
  else match s.sentTag (le f.payload 4 4) with
    | some x => s.frameFails x st
    | none => s

/-- FRAME_ACK_TIMEOUT. -/
def frameAckTimeout (tag t : Nat) (s : State) : State :=
  let s := s.tickTo t
  match s.sentTag tag with
  | some x => if x.since + 26000 ≤ s.aon then s.frameFails x 0x0533#16 else s
  | none => s

/-! ### The checks of the destination (R375) -/

/-- Whether a TYPE names a receiving Parcel. -/
def toParcel (kind : Nat) : Bool := decide (kind < 0x09)

/-- The first check that fails; the frame's ECRC has been checked. -/
def State.frameCheck (s : State) (kind : Nat) (f : TFrame) : Option Status :=
  let p := f.dparcel.toNat
  if !ecrcOk kind f then some 0x0531#16
  else if !headLegal kind f ∨ !bodyLegal kind f then some 0x01A2#16
  else if !(s.trv.survey.any fun v => v.planGen == f.plangen.toNat) then some 0x0537#16
  else if [0x01, 0x02, 0x07, 0x08].contains kind ∧ !((s.parcel p).peers.contains (f.src.toNat, f.sparcel.toNat)) then some 0x0630#16
  else if toParcel kind ∧ (s.parcel p).st = .resetting then some 0x0538#16
  else if kind = 0x01 ∨ kind = 0x02 then (s.rangeCheck true p f.addr.toNat f.payload.length).map (·.1)
  else none

/-- A frame is discarded at its destination. -/
def State.discard (s : State) (kind : Nat) (f : TFrame) (st : Status) : State :=
  let s := s.trvCount .dropped
  (if st = 0x0630#16 then s.trvCount .denied else s).sendDrop kind f st

/-! ### What frames do at their destination -/

/-- The ACK of a frame. -/
def State.ackOut (s : State) (f : TFrame) (st : Status) : State :=
  s.trvOut 0x03 2 f.src.toNat f.sparcel.toNat f.dparcel.toNat f.tag.toNat 0 (natLe 2 st.toNat ++ natLe 2 0)

/-- WRITE: whole sectors, which are no longer poisoned. A stack that is out of service or refuses traffic takes none, and the ACK carries the
status, which ends the task that sent the frame (R305, R326, R376). -/
def State.writeIn (s : State) (f : TFrame) : State :=
  let a := f.addr.toNat
  let gs := pagesOf a f.payload.length
  match gs.findSome? s.stackRefuses with
  | some st => (s.countRefused (st, a)).ackOut f st
  | none =>
  let s := (gs.foldl State.noteRead s).rput a f.payload
  let ks := (List.range (f.payload.length / 64)).map fun k => s.phys (a + 64 * k) / 64
  { s with mem := { s.mem with poison := s.mem.poison.filter fun k => !ks.contains k } }.ackOut f 0

/-- ADD: applied as R169 states; a poisoned block and an adder that has failed its test answer with their status. -/
def State.addIn (s : State) (f : TFrame) (env : Env) : State :=
  let r := ((pagesOf f.addr.toNat 1544).foldl State.noteRead s).applyAdd f.addr.toNat f.payload env
  r.1.ackOut f (match r.2 with
    | .ok sat => if sat then 0x0003#16 else 0
    | .error st => st)

/-- MAILBOX: the response to a RELAY, or a unit for a mailbox, whose source is the module and Parcel that relay it (R422). -/
def State.mailboxIn (s : State) (f : TFrame) (u : MUnit) : State :=
  if u.ukind = 2#8 then
    let key := relayKey f.src.toNat u.seq.toNat u.tag.toNat
    match [f.dparcel.toNat, 16].find? fun m => (s.box m).relay.any fun r => r.1 == key with
    | none => s
    | some m => match (s.box m).wait with
      | some w => if w.code = 3#16 then ((s.modBox m fun b => { b with relay := none }).respond m w 0 f.payload).pumpBoxes else s
      | none => s
  else
    let src : USource := { transport := .traverse, addr := 0, udp := 0, module := f.src.setWidth 12,
                           parcel := if unitBox u = 16 ∧ f.sparcel = 0 then none else some ⟨f.sparcel.toNat, f.sparcel.isLt⟩ }
    s.receive { u with source := src, tlen := f.payload.length }

/-- The remote entry of a request (R344). -/
def State.remoteOf (s : State) (m r : Nat) : Option Nat :=
  (s.reqs.find? fun x => x.2.st != .free && x.2.remote == some (m, r)).map (·.1)

/-- REQCTL with OP 1: the remote entry ends as the client's CANCEL asks. -/
def State.cancelIn (s : State) (f : TFrame) : State :=
  match s.remoteOf (le f.payload 4 2) (le f.payload 2 2) with
  | some r => if (s.req r).st = .ending then s.endAgain r else s.requestEnd r 0x0007#16
  | none => s

/-- REQCTL with OP 2: the tokens named are sent again. -/
def State.resendIn (s : State) (f : TFrame) : State :=
  match s.remoteOf (le f.payload 4 2) (le f.payload 2 2) with
  | some r =>
    let s := if (s.req r).st = .ending then s.endAgain r else s
    s.sendToks r (le f.payload 12 4) (le f.payload 8 4) 65536
  | none => s

/-- REQCTL with OP 3: the entry ends and its tasks are cancelled; its client has had its END frame from the admitting module. -/
def State.reqEndIn (s : State) (f : TFrame) : State :=
  match s.remoteOf (le f.payload 4 2) (le f.payload 2 2) with
  | some r =>
    let st : Status := BitVec.ofNat 16 (le f.payload 6 2)
    let s := s.modReq r fun q => { q with st := .ending }
    (s.cancelWhere st fun d => s.ownedAlone r d).freeReq r
  | none => s

/-- The recipe under which a remote entry decodes: which of those bound to its Parcel is not stated, a free value. -/
def State.remoteRecipe (s : State) (p m r : Nat) : Option Recipe :=
  let l := (s.parcel p).recipes
  (l[Config.remoteWord m r 0 % l.length]?).map (·.2)

/-- A remote entry as its first segment comes (R344). What no frame says of it is free. -/
def State.remoteEntry (s : State) (p m r : Nat) (rc : Recipe) : Request :=
  let w (k : Nat) : Nat := Config.remoteWord m r k
  { Request.free with
    st := .shipping, parcel := p, home := p, port := w 1 % 2, addr := BitVec.ofNat 128 (w 2), udp := BitVec.ofNat 16 (w 3),
    tag := BitVec.ofNat 32 (w 4), accept := s.aon - w 19 % (s.aon + 1), lastPos := s.aon, remote := some (m, r), segs := rc.segments, packed := true,
    gstate := w 6 % 65536,
    blk := { recipe := rc.num, nctx := w 7, ngen := w 8, topk := w 9 % 1025, topp := BitVec.ofNat 16 (w 10), temp := BitVec.ofNat 16 (w 11),
             maskid := w 12 % 65536, gramid := w 13 % 65536, stops := (List.range 4).map fun k => w (14 + k), ttl := w 18 } }

/-- A segment is complete: its blocks are stored in the Parcel's pages and kept under their layer and head, and with the last of them the
request is in DECODE (R340, R355). -/
def State.segmentIn (s : State) (k : KvIn) (rc : Recipe) (bs : List Byte) : State :=
  let r : Option Nat := match s.remoteOf k.module k.req with
    | some r => some r
    | none => (List.range 65536).find? fun r => (s.req r).st == RState.free
  match r with
  | none => s
  | some r =>
    let q : Request := if (s.req r).st = .free then s.remoteEntry k.dparcel k.module k.req rc else s.req r
    let segs := q.segs.erase (k.layer, k.head)
    let q : Request := { q with
      segs := segs, kv := fput q.kv (256 * k.layer + k.head) (bs.drop 32),
      kvGens := kvGensOf rc.d (bs.drop 32) q.kvGens,
      st := if q.st = .shipping ∧ segs.isEmpty then .decode else q.st }
    { s with reqs := fput s.reqs r q }.kvStore q.parcel r k.layer k.head (bs.drop 32)

/-- The bytes of a segment that have come, in the order of their offsets. -/
def KvIn.bytes (k : KvIn) : List Byte := k.parts.flatMap (·.2)

/-- A part of a KV segment: offset 0 begins one, and the others belong to the last begun by their sender. -/
def State.kvsegIn (s : State) (f : TFrame) : State :=
  let b := f.payload
  let mine (k : KvIn) : Bool := k.src == f.src.toNat && k.sparcel == f.sparcel.toNat && k.dparcel == f.dparcel.toNat
  let k : Option KvIn :=
    if f.addr = 0 then
      some { src := f.src.toNat, sparcel := f.sparcel.toNat, dparcel := f.dparcel.toNat, module := le b 2 2, req := le b 0 2,
             layer := le b 4 1, head := le b 5 1, blocks := le b 6 2, parts := [(0, b)] }
    else (s.trv.kvIn.find? mine).map fun k => { k with parts := fput k.parts f.addr.toNat b }
  let rest := s.trv.kvIn.filter fun k => !mine k
  let s := match k with
    | none => s
    | some k =>
      match s.remoteRecipe k.dparcel k.module k.req with
      | none => { s with trv := { s.trv with kvIn := k :: rest } }
      | some rc =>
        if k.bytes.length < 32 + k.blocks * (8 + 32 * rc.d) then { s with trv := { s.trv with kvIn := k :: rest } }
        else ({ s with trv := { s.trv with kvIn := rest } }).segmentIn k rc k.bytes
  s.ackOut f 0

/-- The step of a Parcel, or a new one, which awaits the modules of its peer list (R363). -/
def State.adaptOf (s : State) (p step : Nat) : Adapt :=
  (s.adapts.find? fun a => a.parcel == p && a.step == step).getD
    { parcel := p, step := step, expected := ((s.parcel p).peers.map (·.1)).eraseDups, got := [], ended := none }

def State.setAdapt (s : State) (a : Adapt) : State :=
  { s with adapts := (s.adapts.filter fun b => b.parcel != a.parcel || b.step != a.step) ++ [a] }

/-- Puts bytes at an offset of the last entry of a source. -/
def extendLast (m o : Nat) (b : List Byte) : List (Nat × List Byte) → List (Nat × List Byte)
  | [] => []
  | x :: r => if x.1 = m ∧ !(r.any fun y => y.1 == m) then (m, splice o b (fit 0 (max o x.2.length) x.2)) :: r else x :: extendLast m o b r

/-- A part of a factor block. A contribution that comes after the step's deadline changes nothing. -/
def State.gradIn (s : State) (f : TFrame) : State :=
  let p := f.dparcel.toNat
  let b := f.payload
  let s :=
    if f.addr = 0 then
      let a := s.adaptOf p (le b 8 4)
      if a.ended.isSome then s else s.setAdapt { a with got := a.got ++ [(le b 6 2, b)] }
    else match (s.adapts.reverse.find? fun a => a.parcel == p && a.ended.isNone && a.got.any fun g => g.1 == f.src.toNat) with
      | some a => s.setAdapt { a with got := extendLast f.src.toNat f.addr.toNat b a.got }
      | none => s
  s.ackOut f 0

/-! ### CLOSURE and REOPEN (R391, R392) -/

/-- An event that is newer than every one seen of its origin acts, and leaves on every other port. -/
def State.eventIn (s : State) (kind port : Nat) (f : TFrame) : State :=
  let b := f.payload
  let o := le b 0 2
  let n := le b 2 2
  let new : Bool := match s.trv.cl.seen.find? fun x => x.1 == o with
    | some x => decide (0 < serialDist 16 n x.2)
    | none => true
  if o = s.own ∨ !new then s
  else
    let x := (le b 4 2, le b 6 1)
    let y := (le b 8 2, le b 10 1)
    let s := s.modCl fun c =>
      let c := { c with seen := fput c.seen o n }
      if kind = 0x21 then c.close x y else c.reopen x y o
    s.newEvent.flood kind b (some port)

/-! ### Frames on their way (R379 to R382) -/

/-- A frame for another module goes on: one hop less, in SET 1 once it has crossed a dateline. -/
def State.transitFrame (s : State) (kind : Nat) (f : TFrame) : State :=
  let h := f.hops.toNat % 4096
  let d := f.dest.toNat % 4096
  if h = 0 then (s.trvCount .expired).sendDrop kind f 0x0534#16
  else match s.route d (b2n f.set) with
    | none => (s.trvCount .dropped).sendDrop kind f 0x0532#16
    | some p =>
      let set := if s.trv.survey.any fun v => v.dateline s.own p then 1 else b2n f.set
      let e : EFrame := { what := .forward 18 18 0 0 kind f (h - 1), cls := f.cls.toNat % 4, set := set, dest := d,
                          len := 36 + f.payload.length, kind := kind, parcel := none, hops := h - 1, ingress := f.port }
      (s.modPort p fun x => { x with queue := x.queue ++ [e] }).pump p ((s.tport p).queue.length + 1)

/-! ### Arrival (R377) -/

/-- What a frame does at its destination. -/
def State.frameIn (s : State) (kind : Nat) (f : TFrame) (env : Env) (u : Option MUnit) : State :=
  match kind with
  | 0x01 => s.writeIn f
  | 0x02 => s.addIn f env
  | 0x03 => s.ackIn f
  | 0x04 => let w : BitVec 64 := BitVec.ofNat 64 (le f.payload 0 8); (s.applyToken (bits w.toNat 33 32) w true).nextMoment
  | 0x05 => match u with
    | some u => s.mailboxIn f u
    | none => s
  | 0x06 => if le f.payload 0 1 = 1 then s.cancelIn f else if le f.payload 0 1 = 2 then s.resendIn f else s.reqEndIn f
  | 0x07 => s.kvsegIn f
  | 0x08 => s.gradIn f
  | 0x09 => s.dropIn f
  | _ => s

/-- The TYPE, frame, port and further operands of a frame's command. -/
def frameOf : Instr → Option (Nat × TFrame × Nat × Env × Option MUnit)
  | .write f _ => some (f.kind 0x01, f, f.port, .clean, none)
  | .add f env _ => some (f.kind 0x02, f, f.port, env, none)
  | .traverseAck f _ => some (f.kind 0x03, f, f.port, .clean, none)
  | .token f _ => some (f.kind 0x04, f, f.port, .clean, none)
  | .mailbox f u _ => some (f.kind 0x05, f, f.port, .clean, some u)
  | .reqctlCancel f _ => some (f.kind 0x06, f, f.port, .clean, none)
  | .reqctlResend f _ => some (f.kind 0x06, f, f.port, .clean, none)
  | .reqEnd f _ => some (f.kind 0x06, f, f.port, .clean, none)
  | .kvseg f _ => some (f.kind 0x07, f, f.port, .clean, none)
  | .grad f _ => some (f.kind 0x08, f, f.port, .clean, none)
  | .drop f _ => some (f.kind 0x09, f, f.port, .clean, none)
  | .closure p f _ => some (f.kind 0x21, f, p, .clean, none)
  | .reopen p f _ => some (f.kind 0x22, f, p, .clean, none)
  | _ => none

/-- A frame that a port passes on: it acts here, or goes on its way. Events act at every module they reach. -/
def State.passFrame (s : State) (i : Instr) : State :=
  match frameOf i with
  | none => s
  | some (kind, f, p, env, u) =>
    let event := kind == 0x21 || kind == 0x22
    if !event ∧ f.dest.toNat % 4096 ≠ s.own then s.transitFrame kind f
    else match s.frameCheck kind f with
      | some st => s.discard kind f st
      | none => if event then s.eventIn kind p f else s.frameIn kind f env u

/-- The frames that came early and whose turn it is now. -/
def State.passEarly (s : State) (p : Nat) : Nat → State
  | 0 => s
  | n + 1 =>
    match (s.tport p).early.find? fun e => e.1 == (s.tport p).rx with
    | none => s
    | some e =>
      State.passEarly ((s.modPort p fun x => { x with rx := (x.rx + 1) % 2 ^ 24, early := x.early.erase e }).passFrame e.2) p n

/-- A frame arrives on a port: in PSEQ order it passes on, early it waits, a repeat is discarded. Only a port with an ACTIVE link carries
frames. What this module sends to itself crosses no port. -/
def State.frameComes (s : State) (i : Instr) (t : Nat) : State :=
  let s := s.tickTo t
  match frameOf i with
  | none => s
  | some (_, f, p, _, _) =>
    if !s.pwr.powered ∨ s.pwr.silent ∨ s.sec.boot ≠ 7 ∨ s.trv.survey.isNone then s
    else if f.src.toNat = s.own ∧ f.dest.toNat = s.own then s.passFrame i
    else if (s.activeMembers p).isEmpty then s
    else
      let d := serialDist 24 f.pseq.toNat (s.tport p).rx
      if d = 0 then
        let s := (s.modPort p fun x => { x with rx := (x.rx + 1) % 2 ^ 24 }).passFrame i
        s.passEarly p (s.tport p).early.length
      else if 0 < d ∧ d < 4194304 ∧ !((s.tport p).early.any fun e => e.1 == f.pseq.toNat) then
        s.modPort p fun x => { x with early := x.early ++ [(f.pseq.toNat, i)] }
      else s

/-! ### The meanings -/

def execWrite (f : TFrame) (t : Nat) (s : State) : Host.Outcome State Fault Refusal := .next (s.frameComes (.write f t) t)
def execAdd (f : TFrame) (env : Env) (t : Nat) (s : State) : Host.Outcome State Fault Refusal := .next (s.frameComes (.add f env t) t)
def execTraverseAck (f : TFrame) (t : Nat) (s : State) : Host.Outcome State Fault Refusal := .next (s.frameComes (.traverseAck f t) t)
def execToken (f : TFrame) (t : Nat) (s : State) : Host.Outcome State Fault Refusal := .next (s.frameComes (.token f t) t)
def execMailbox (f : TFrame) (u : MUnit) (t : Nat) (s : State) : Host.Outcome State Fault Refusal :=
  .next (s.frameComes (.mailbox f u t) t)
def execReqctlCancel (f : TFrame) (t : Nat) (s : State) : Host.Outcome State Fault Refusal := .next (s.frameComes (.reqctlCancel f t) t)
def execReqctlResend (f : TFrame) (t : Nat) (s : State) : Host.Outcome State Fault Refusal := .next (s.frameComes (.reqctlResend f t) t)
def execReqEnd (f : TFrame) (t : Nat) (s : State) : Host.Outcome State Fault Refusal := .next (s.frameComes (.reqEnd f t) t)
def execKvseg (f : TFrame) (t : Nat) (s : State) : Host.Outcome State Fault Refusal := .next (s.frameComes (.kvseg f t) t)
def execGrad (f : TFrame) (t : Nat) (s : State) : Host.Outcome State Fault Refusal := .next (s.frameComes (.grad f t) t)
def execDrop (f : TFrame) (t : Nat) (s : State) : Host.Outcome State Fault Refusal := .next (s.frameComes (.drop f t) t)
def execClosure (p : Fin 18) (f : TFrame) (t : Nat) (s : State) : Host.Outcome State Fault Refusal :=
  .next (s.frameComes (.closure p f t) t)
def execReopen (p : Fin 18) (f : TFrame) (t : Nat) (s : State) : Host.Outcome State Fault Refusal :=
  .next (s.frameComes (.reopen p f t) t)
def execFrameAckTimeout (tag : BitVec 32) (t : Nat) (s : State) : Host.Outcome State Fault Refusal := .next (frameAckTimeout tag.toNat t s)

end Sys2Proof.Machine
end

