-- ==== Sys2Proof/Machine/TrvLinks.lean ====
section
/-!
DEFINITION. The links of the Traverse: flits, credits and replay (R368 to R371), the states of a link and the comparison of HELLO
(R388 to R390), and the recomputation of routes (R393, R395).
-/

namespace Sys2Proof.Machine

/-! ### Flits (R369, R370, R371) -/

/-- The frames that stand when the flits up to `h` are acknowledged; progress ends a count of replays. -/
def TLink.ackedTo (l : TLink) (h : Nat) : TLink :=
  let u := l.unacked.filter fun u => decide (0 < serialDist 12 ((u.first + u.flits + 4095) % 4096) h)
  { l with unacked := u, replayed := if u.length < l.unacked.length then 0 else l.replayed }

/-- The flits sent after `h`. -/
def TLink.after (l : TLink) (h : Nat) : Nat :=
  (l.unacked.map fun u => (List.range u.flits).countP fun i => decide (0 < serialDist 12 ((u.first + i) % 4096) h)).sum

/-- Credits return for a channel. -/
def TLink.credit (l : TLink) (vc n : Nat) : TLink := { l with used := fput l.used vc (tget 0 l.used vc - n) }

/-- Whether a perturbation withholds the credits of a channel (R527): only on a link that is not ACTIVE. -/
def State.withheld (s : State) (k vc : Nat) : Bool :=
  (s.tlink k).st != .active && (List.range 16).any fun e =>
    let x := tget .reset s.dep.tperts e
    x.on 5 k && bits x.action.toNat 3 1 == 3 && x.action.getLsbD (36 + vc)

/-- Acknowledgements and NAKs that a flit carries. After 8 replays of one flit the link retrains. -/
def State.flitAck (s : State) (k h : Nat) (nak : Bool) : State :=
  let s := s.modLink k fun l => l.ackedTo h
  let n := (s.tlink k).after h
  if !nak ∨ n = 0 then s
  else if 8 ≤ (s.tlink k).replayed then s.linkRetrains k
  else
    let s := s.modLink k fun l => { l with replayed := l.replayed + 1, status := setB l.status 6 }
    (s.linkCount k .replays n).linkCount k .tx n

/-- Answers a flit: NAK names the flit before the one to be replayed, ACK the last in order. -/
def State.flitAnswer (s : State) (k : Nat) (nak : Bool) (vc credits : Nat) : State :=
  s.emit (.traverseCtl k nak (((s.tlink k).expect + 4095) % 4096) vc (if s.withheld k vc then 0 else credits))

/-- Frames leave the port of a link while they can. -/
def State.pumpLink (s : State) (k : Nat) : State := match s.portOf k with
  | some p => s.pump p ((s.tport p).queue.length + 1)
  | none => s

/-- Whether a link carries flits. -/
def LinkSt.carries (x : LinkSt) : Bool := x == .hello || x == .quarantined || x == .active || x == .probation

/-- The flit header (R369). -/
def flitHead (ftype fseq ackseq : Nat) (nak : Bool) (dvc cvc credits first : Nat) : Nat :=
  field 46 2 ftype + field 34 12 fseq + field 22 12 ackseq + field 21 1 (b2n nak) + field 18 3 dvc + field 15 3 cvc + field 10 5 credits
    + field 0 10 first

/-- Whether the fields of a flit header lie in their ranges (R369, R371). -/
def flitHeadLegal (ftype dvc cvc credits first : Nat) : Bool :=
  ftype != 3 && (decide (first < 640) || first == 0x3FF) && (ftype != 1 || decide (dvc ≤ 5)) && (credits == 0 || decide (cvc ≤ 5))

/-- TRAVERSE_FLIT: `symErrs` symbols are wrong; the CRC-32C covers bytes 0 to 645 (R368). IDLE flits have no place in the order. A flit with a
field out of its range changes nothing (R6). The frames that the payload carries arrive by their own commands. -/
def traverseFlit (k ftype fseq ackseq : Nat) (nak : Bool) (dvc cvc credits first : Nat) (pay : List Byte) (crc : BitVec 32) (symErrs : Nat)
    (s : State) : State :=
  if !s.linkUsed k ∨ s.panel.fault.getLsbD k ∨ !(s.tlink k).st.carries ∨ (s.tlink k).retrain then s
  else if 12 < symErrs ∨ crc ≠ crc32c (natLe 6 (flitHead ftype fseq ackseq nak dvc cvc credits first) ++ pay) then s.flitAnswer k true 0 0
  else if !flitHeadLegal ftype dvc cvc credits first then s
  else
    let s := s.linkCount k .fec symErrs
    let s := if ftype = 1 then s.linkCount k .rx else s
    let s := if credits = 0 then s else s.modLink k fun l => l.credit cvc credits
    let s := s.flitAck k ackseq nak
    let d := serialDist 12 fseq (s.tlink k).expect
    let s := if ftype = 0 then s
      else if d = 0 then
        (s.modLink k fun l => { l with expect := (l.expect + 1) % 4096 }).flitAnswer k false dvc (if ftype = 1 then 5 else 0)
      else if d < 0 then s.flitAnswer k false 0 0
      else s.flitAnswer k true 0 0
    s.pumpLink k

/-- TRAVERSE_LINK_SILENCE: no valid flit for 2 µs. -/
def traverseLinkSilence (k t : Nat) (s : State) : State :=
  let s := s.tickTo t
  if s.linkUsed k ∧ (s.tlink k).st.carries then s.linkFails k else s

/-- TRAVERSE_RETRAIN_END. -/
def traverseRetrainEnd (k : Nat) (ok : Bool) (t : Nat) (s : State) : State :=
  let s := s.tickTo t
  if !(s.tlink k).retrain then s
  else if ok then (s.modLink k fun l => { l with retrain := false, replayed := 0 }).pumpLink k
  else s.linkFails k

/-! ### The states of a link (R388) -/

/-- LINK_FAILED_TIMEOUT: after 10 ms a link is DOWN, and training begins. -/
def linkFailedTimeout (k t : Nat) (s : State) : State :=
  let s := s.tickTo t
  if (s.tlink k).st = .failed ∧ (s.tlink k).since + 130000 ≤ s.aon then (s.linkTo k .down).linkTo k .training else s

/-- LINK_TRAINING_TIMEOUT: 50 ms without success. -/
def linkTrainingTimeout (k t : Nat) (s : State) : State :=
  let s := s.tickTo t
  if (s.tlink k).st = .training ∧ (s.tlink k).since + 650000 ≤ s.aon then s.linkTo k .down else s

/-- A link enters HELLO and sends its frame (R389). -/
def State.enterHello (s : State) (k : Nat) : State := (s.linkTo k .hello).emit (.linkFrame k 0x20 (s.helloPay k))

/-- LINK_TRAINED: a link whose training has begun. In recovery the image is requested on it, if no other link is in turn (R468). -/
def linkTrained (k t : Nat) (s : State) : State :=
  let s := s.tickTo t
  if !s.linkUsed k ∨ s.panel.fault.getLsbD k ∨ ((s.tlink k).st ≠ .training ∧ (s.tlink k).st ≠ .down) then s
  else
    let s := s.modLink k TLink.fresh
    match s.sec.recover with
    | some r => let s := s.linkTo k .hello; if r.link = 18 ∧ r.reqs = [] then s.startFetch k else s
    | none => s.enterHello k

/-- QUARANTINE_RETRY: every 1 ms. -/
def quarantineRetry (k t : Nat) (s : State) : State :=
  let s := s.tickTo t
  if s.linkUsed k ∧ !s.inRecovery ∧ (s.tlink k).st = .quarantined ∧ (s.tlink k).since + 13000 ≤ s.aon then s.enterHello k else s

/-- PROBATION_END: 100 ms without retraining; REOPEN is sent and the link is ACTIVE. -/
def probationEnd (k t : Nat) (s : State) : State :=
  let s := s.tickTo t
  if (s.tlink k).st ≠ .probation ∨ s.aon < (s.tlink k).since + 1300000 then s
  else
    let s := s.linkActive k
    match s.portOf k with
    | some p => if s.trv.cl.failed.contains (s.own, p) then s.ownEvent 0x22 p else s
    | none => s

/-! ### HELLO (R390) -/

/-- The first check of R390 that a peer's HELLO fails. -/
def State.helloCheck (s : State) (k : Nat) (b : List Byte) : Option Status :=
  let m := le b 0 2 % 4096
  let v := le b 3 1
  if 1 < v % 16 ∨ v / 16 < 1 then some 0x0539#16
  else match s.trv.survey with
    | none => some 0x0537#16
    | some sv =>
      if sv.planId ≠ le b 4 4 ∨ sv.planGen ≠ le b 8 2 then some 0x0537#16
      else if !(sv.mods.contains (m, BitVec.ofNat 64 (le b 16 8))) then some 0x0631#16
      else match s.portOf k with
        | none => some 0x053A#16
        | some p => match sv.peerPort s.own p with
          | none => some 0x053A#16
          | some q =>
            if q.1 = m ∧ (sv.portsOf m).any (fun y => y.port == q.2 && y.has (le b 2 1)) then none else some 0x053A#16

/-- Whether the peer's link differs from the plan's within the port. -/
def State.swapped (s : State) (k : Nat) (b : List Byte) : Bool :=
  s.trv.survey.any fun sv => (sv.linkAt s.own k).any fun l => l.peer s.own k != (le b 0 2 % 4096, le b 2 1)

/-- TRV_LINK_STATUS with the peer of a HELLO that was compared, and SWAPPED (R390, R401). -/
def State.helloStatus (s : State) (k : Nat) (b : List Byte) (swapped : Bool) : BitVec 64 :=
  let kept := (s.tlink k).status &&& 0xFFFF0070#64
  kept ||| BitVec.ofNat 64 (field 52 12 (le b 0 2) + field 47 5 (le b 2 1) + field 7 1 (b2n swapped))

/-- A check fails: QUARANTINED, with a link event. A cable that reaches another port or module closes the port as a failure would. -/
def State.quarantine (s : State) (k : Nat) (st : Status) : State :=
  let s := (s.linkTo k .quarantined).modLink k fun l => { l with status := setLastSt l.status st }
  let s := s.notify 16 0x0031 (linkDetail k 3 st)
  match s.portOf k with
  | some p =>
    if st = 0x053A#16 ∧ (s.activeMembers p).isEmpty ∧ !s.trv.cl.failed.contains (s.own, p) then s.ownEvent 0x21 p else s
  | none => s

/-- HELLO: compared on a link in that state. A frame that is not whole or legal is discarded; nothing answers it. -/
def hello (k : Nat) (f : TFrame) (t : Nat) (s : State) : State :=
  let s := s.tickTo t
  if !s.linkUsed k ∨ s.inRecovery ∨ (s.tlink k).st ≠ .hello then s
  else if !ecrcOk 0x20 f ∨ !headLegal 0x20 f ∨ !bodyLegal 0x20 f then s.trvCount .dropped
  else
    let check := s.helloCheck k f.payload
    let w := s.helloStatus k f.payload (check.isNone && s.swapped k f.payload)
    let s := s.modLink k fun l => { l with status := w }
    match check with
    | some st => s.quarantine k st
    | none =>
      match s.portOf k with
      | some p => if s.trv.cl.failed.contains (s.own, p) then s.linkTo k .probation else s.linkActive k
      | none => s

/-! ### Closure (R393, R395) -/

/-- ROUTE_RECOMPUTE: 50 µs after the last new event. -/
def routeRecompute (t : Nat) (s : State) : State :=
  let s := s.tickTo t
  match s.trv.cl.event with
  | some e => if e + 650 ≤ s.aon then s.modCl fun c => { c with event := none, running := true } else s
  | none => s

/-- ROUTES_TAKE_EFFECT. -/
def routesTakeEffect (t : Nat) (s : State) : State :=
  let s := s.tickTo t
  if !s.trv.cl.running then s
  else (((s.modCl fun c => { c with running := false }).takeRoutes).trvCount .closures).checkGroups

/-! ### The meanings -/

def execTraverseFlit (k : Fin 18) (ftype : BitVec 2) (fseq ackseq : BitVec 12) (nak : Bool) (dvc cvc : BitVec 3) (credits : BitVec 5)
    (first : BitVec 10) (pay : List Byte) (crc : BitVec 32) (symErrs : Nat) (s : State) : Host.Outcome State Fault Refusal :=
  .next (traverseFlit k ftype.toNat fseq.toNat ackseq.toNat nak dvc.toNat cvc.toNat credits.toNat first.toNat pay crc symErrs s)
def execTraverseLinkSilence (k : Fin 18) (t : Nat) (s : State) : Host.Outcome State Fault Refusal := .next (traverseLinkSilence k t s)
def execTraverseRetrainEnd (k : Fin 18) (ok : Bool) (t : Nat) (s : State) : Host.Outcome State Fault Refusal :=
  .next (traverseRetrainEnd k ok t s)
def execHello (k : Fin 18) (f : TFrame) (t : Nat) (s : State) : Host.Outcome State Fault Refusal := .next (hello k f t s)
def execLinkFailedTimeout (k : Fin 18) (t : Nat) (s : State) : Host.Outcome State Fault Refusal := .next (linkFailedTimeout k t s)
def execLinkTrainingTimeout (k : Fin 18) (t : Nat) (s : State) : Host.Outcome State Fault Refusal := .next (linkTrainingTimeout k t s)
def execLinkTrained (k : Fin 18) (t : Nat) (s : State) : Host.Outcome State Fault Refusal := .next (linkTrained k t s)
def execQuarantineRetry (k : Fin 18) (t : Nat) (s : State) : Host.Outcome State Fault Refusal := .next (quarantineRetry k t s)
def execProbationEnd (k : Fin 18) (t : Nat) (s : State) : Host.Outcome State Fault Refusal := .next (probationEnd k t s)
def execRouteRecompute (t : Nat) (s : State) : Host.Outcome State Fault Refusal := .next (routeRecompute t s)
def execRoutesTakeEffect (t : Nat) (s : State) : Host.Outcome State Fault Refusal := .next (routesTakeEffect t s)

end Sys2Proof.Machine
end

