-- ==== Sys2Proof/Machine/Dispatch.lean ====
section
/-!
DEFINITION. The meaning of every command: one arm for each row of spec/opcode_table.json, in the table's order.
-/

namespace Sys2Proof.Machine

def exec (i : Instr) (s : State) : Host.Outcome State Fault Refusal :=
  match i with
  | .anop n inLoad code rsv => Sys2Proof.Machine.execAnop n inLoad code rsv s
  | .amac n slot swap istr rsv env => Sys2Proof.Machine.execAmac n slot swap istr rsv env s
  | .aloadd n inLoad wstr nm1 blk cnta rsv env => Sys2Proof.Machine.execAloadd n inLoad wstr nm1 blk cnta rsv env s
  | .aloadm n inLoad wstr nm1 blk cnta rsv env => Sys2Proof.Machine.execAloadm n inLoad wstr nm1 blk cnta rsv env s
  | .bload n inLoad wstr nm1 bank pair rsv env => Sys2Proof.Machine.execBload n inLoad wstr nm1 bank pair rsv env s
  | .brun n slot bm1 bank add istr rsv19 pem1 rsv env => Sys2Proof.Machine.execBrun n slot bm1 bank add istr rsv19 pem1 rsv env s
  | .loaderTick n env => Sys2Proof.Machine.execLoaderTick n env s
  | .brunPass n env => Sys2Proof.Machine.execBrunPass n env s
  | .brunOverrunFreeze n => Sys2Proof.Machine.execBrunOverrunFreeze n s
  | .brunWindowClose n => Sys2Proof.Machine.execBrunWindowClose n s
  | .columnSumAdd n env => Sys2Proof.Machine.execColumnSumAdd n env s
  | .replayComplete n env => Sys2Proof.Machine.execReplayComplete n env s
  | .dnop n code rsv => Sys2Proof.Machine.execDnop n code rsv s
  | .drain n slot out close ostra ostrb gb ngl wm1 uns rsv => Sys2Proof.Machine.execDrain n slot out close ostra ostrb gb ngl wm1 uns rsv s
  | .dred n slot out close ostra ostrb gb ngl rsvw rsv => Sys2Proof.Machine.execDred n slot out close ostra ostrb gb ngl rsvw rsv s
  | .dinit n slot nm1 di start clrs rsv => Sys2Proof.Machine.execDinit n slot nm1 di start clrs rsv s
  | .dfill n slot istr rsv env => Sys2Proof.Machine.execDfill n slot istr rsv env s
  | .drainBlockWrite n env => Sys2Proof.Machine.execDrainBlockWrite n env s
  | .holdEnd n k env => Sys2Proof.Machine.execHoldEnd n k env s
  | .memoryAtomicAdd ctl env => Sys2Proof.Machine.execMemoryAtomicAdd ctl env s
  | .atomicAddAck n id => Sys2Proof.Machine.execAtomicAddAck n id s
  | .rnop n code rsv => Sys2Proof.Machine.execRnop n code rsv s
  | .rpred n istr pblk tok gb rsv env => Sys2Proof.Machine.execRpred n istr pblk tok gb rsv env s
  | .rsel n istr pblk tok gb rsv env => Sys2Proof.Machine.execRsel n istr pblk tok gb rsv env s
  | .rfin n pblk ntm1 ga rsv env => Sys2Proof.Machine.execRfin n pblk ntm1 ga rsv env s
  | .rchk n istr pblk tok bi rsv env => Sys2Proof.Machine.execRchk n istr pblk tok bi rsv env s
  | .reconRecordWrite n env => Sys2Proof.Machine.execReconRecordWrite n env s
  | .rfinListsWrite n env => Sys2Proof.Machine.execRfinListsWrite n env s
  | .vnop n e code vd va vb aux => Sys2Proof.Machine.execVnop n e code vd va vb aux s
  | .vadd n e vd va vb aux => Sys2Proof.Machine.execVadd n e vd va vb aux s
  | .vsub n e vd va vb aux => Sys2Proof.Machine.execVsub n e vd va vb aux s
  | .vmul n e vd va vb aux => Sys2Proof.Machine.execVmul n e vd va vb aux s
  | .vdiv n e vd va vb aux => Sys2Proof.Machine.execVdiv n e vd va vb aux s
  | .vmax n e vd va vb aux => Sys2Proof.Machine.execVmax n e vd va vb aux s
  | .vmin n e vd va vb aux => Sys2Proof.Machine.execVmin n e vd va vb aux s
  | .vneg n e vd va vb aux => Sys2Proof.Machine.execVneg n e vd va vb aux s
  | .vexp2 n e vd va vb aux => Sys2Proof.Machine.execVexp2 n e vd va vb aux s
  | .vcmpge n e vd va vb aux => Sys2Proof.Machine.execVcmpge n e vd va vb aux s
  | .vbcast n e vd va vb aux => Sys2Proof.Machine.execVbcast n e vd va vb aux s
  | .vimm n e vd va vb aux => Sys2Proof.Machine.execVimm n e vd va vb aux s
  | .vrmax n e vd va vb aux => Sys2Proof.Machine.execVrmax n e vd va vb aux s
  | .vrsum n e vd va vb aux => Sys2Proof.Machine.execVrsum n e vd va vb aux s
  | .vsets n e vd va vb aux => Sys2Proof.Machine.execVsets n e vd va vb aux s
  | .vld n e vd va vb aux env => Sys2Proof.Machine.execVld n e vd va vb aux env s
  | .vst n e vd va vb aux => Sys2Proof.Machine.execVst n e vd va vb aux s
  | .vmskld n e vd va vb aux env => Sys2Proof.Machine.execVmskld n e vd va vb aux env s
  | .vcvt n e vd va vb aux env => Sys2Proof.Machine.execVcvt n e vd va vb aux env s
  | .vpack n e vd va vb aux => Sys2Proof.Machine.execVpack n e vd va vb aux s
  | .vpackBlockWrite n e => Sys2Proof.Machine.execVpackBlockWrite n e s
  | .vtern n e vd va vb aux env => Sys2Proof.Machine.execVtern n e vd va vb aux env s
  | .vtstrip n e vd va vb aux => Sys2Proof.Machine.execVtstrip n e vd va vb aux s
  | .vtrow n e vd va vb aux => Sys2Proof.Machine.execVtrow n e vd va vb aux s
  | .vtcnt n e vd va vb aux env => Sys2Proof.Machine.execVtcnt n e vd va vb aux env s
  | .snop n code sd sa sb imm => Sys2Proof.Machine.execSnop n code sd sa sb imm s
  | .sadd n sd sa sb imm => Sys2Proof.Machine.execSadd n sd sa sb imm s
  | .ssub n sd sa sb imm => Sys2Proof.Machine.execSsub n sd sa sb imm s
  | .sand n sd sa sb imm => Sys2Proof.Machine.execSand n sd sa sb imm s
  | .sor n sd sa sb imm => Sys2Proof.Machine.execSor n sd sa sb imm s
  | .sxor n sd sa sb imm => Sys2Proof.Machine.execSxor n sd sa sb imm s
  | .sshl n sd sa sb imm => Sys2Proof.Machine.execSshl n sd sa sb imm s
  | .sshr n sd sa sb imm => Sys2Proof.Machine.execSshr n sd sa sb imm s
  | .saddi n sd sa sb imm => Sys2Proof.Machine.execSaddi n sd sa sb imm s
  | .sli n sd sa sb imm => Sys2Proof.Machine.execSli n sd sa sb imm s
  | .slih n sd sa sb imm => Sys2Proof.Machine.execSlih n sd sa sb imm s
  | .sld n sd sa sb imm env => Sys2Proof.Machine.execSld n sd sa sb imm env s
  | .sst n sd sa sb imm env => Sys2Proof.Machine.execSst n sd sa sb imm env s
  | .sset n sd sa sb imm => Sys2Proof.Machine.execSset n sd sa sb imm s
  | .spos n sd sa sb imm => Sys2Proof.Machine.execSpos n sd sa sb imm s
  | .mnop n code sa sb sc tag rsv => Sys2Proof.Machine.execMnop n code sa sb sc tag rsv s
  | .min n sa sb sc tag rsv => Sys2Proof.Machine.execMin n sa sb sc tag rsv s
  | .mout n sa sb sc tag rsv => Sys2Proof.Machine.execMout n sa sb sc tag rsv s
  | .mcopy n sa sb sc tag rsv => Sys2Proof.Machine.execMcopy n sa sb sc tag rsv s
  | .dmaTransferComplete n tag env => Sys2Proof.Machine.execDmaTransferComplete n tag env s
  | .cnop n code rsv env => Sys2Proof.Machine.execCnop n code rsv env s
  | .loop n bm1 csrc sc ch imm env => Sys2Proof.Machine.execLoop n bm1 csrc sc ch imm env s
  | .step n rsv env => Sys2Proof.Machine.execStep n rsv env s
  | .dwait n mask rsv env => Sys2Proof.Machine.execDwait n mask rsv env s
  | .endProg n rsv env => Sys2Proof.Machine.execEndProg n rsv env s
  | .rangeDataArrival n cycles => Sys2Proof.Machine.execRangeDataArrival n cycles s
  | .issueDutyWindow f => Sys2Proof.Machine.execIssueDutyWindow f s
  | .rerunResume n dmaTicks => Sys2Proof.Machine.execRerunResume n dmaTicks s
  | .scratchScrubLine n bank errs => Sys2Proof.Machine.execScratchScrubLine n bank errs s
  | .scrubComplete n => Sys2Proof.Machine.execScrubComplete n s
  | .taskComplete n t katPass seals env => Sys2Proof.Machine.execTaskComplete n t katPass seals env s
  | .descriptorSubmit f desc by_ ue t => Sys2Proof.Machine.execDescriptorSubmit f desc by_ ue t s
  | .taskDispatch n zero t env => Sys2Proof.Machine.execTaskDispatch n zero t env s
  | .completionToken f toks t => Sys2Proof.Machine.execCompletionToken f toks t s
  | .pendingTokenExpire f t => Sys2Proof.Machine.execPendingTokenExpire f t s
  | .deadlineReached f tid t => Sys2Proof.Machine.execDeadlineReached f tid t s
  | .runLimit n t => Sys2Proof.Machine.execRunLimit n t s
  | .katDue n t => Sys2Proof.Machine.execKatDue n t s
  | .gateKatDue fails t => Sys2Proof.Machine.execGateKatDue fails t s
  | .writeCombineFlush n region env => Sys2Proof.Machine.execWriteCombineFlush n region env s
  | .pageMoveStart t => Sys2Proof.Machine.execPageMoveStart t s
  | .pageMoveFlip stack ue t => Sys2Proof.Machine.execPageMoveFlip stack ue t s
  | .verifyReadComplete rpage ok => Sys2Proof.Machine.execVerifyReadComplete rpage ok s
  | .tierWWriteComplete w ue t => Sys2Proof.Machine.execTierWWriteComplete w ue t s
  | .unmapComplete rpage => Sys2Proof.Machine.execUnmapComplete rpage s
  | .frameZeroingComplete stack frame => Sys2Proof.Machine.execFrameZeroingComplete stack frame s
  | .patrolScrub stack frame sector corrected ue t => Sys2Proof.Machine.execPatrolScrub stack frame sector corrected ue t s
  | .stackTempReading stack temp t => Sys2Proof.Machine.execStackTempReading stack temp t s
  | .stackRfmRequest h => Sys2Proof.Machine.execStackRfmRequest h s
  | .selfRefreshEntry stack t => Sys2Proof.Machine.execSelfRefreshEntry stack t s
  | .seamFlit seam dir seq ackseq nak rsv crc payload => Sys2Proof.Machine.execSeamFlit seam dir seq ackseq nak rsv crc payload s
  | .seamRetrainEnd seam ok t => Sys2Proof.Machine.execSeamRetrainEnd seam ok t s
  | .seamSilenceTimeout seam t => Sys2Proof.Machine.execSeamSilenceTimeout seam t s
  | .wslIdle w fl => Sys2Proof.Machine.execWslIdle w fl s
  | .wslRead w fl => Sys2Proof.Machine.execWslRead w fl s
  | .wslData w fl => Sys2Proof.Machine.execWslData w fl s
  | .wslProg w fl => Sys2Proof.Machine.execWslProg w fl s
  | .wslProgdata w fl => Sys2Proof.Machine.execWslProgdata w fl s
  | .wslErase w fl => Sys2Proof.Machine.execWslErase w fl s
  | .wslTagwr w fl => Sys2Proof.Machine.execWslTagwr w fl s
  | .wslDone w fl => Sys2Proof.Machine.execWslDone w fl s
  | .wslStatusrd w fl => Sys2Proof.Machine.execWslStatusrd w fl s
  | .wslStatusrsp w fl t => Sys2Proof.Machine.execWslStatusrsp w fl t s
  | .wslAck w up fl => Sys2Proof.Machine.execWslAck w up fl s
  | .wslNak w up fl => Sys2Proof.Machine.execWslNak w up fl s
  | .wslRetrainEnd w ok t => Sys2Proof.Machine.execWslRetrainEnd w ok t s
  | .submit fr t => Sys2Proof.Machine.execSubmit fr t s
  | .prompt fr t => Sys2Proof.Machine.execPrompt fr t s
  | .cancel fr t => Sys2Proof.Machine.execCancel fr t s
  | .resend fr t => Sys2Proof.Machine.execResend fr t s
  | .endack fr t => Sys2Proof.Machine.execEndack fr t s
  | .icmpv6Echo port src dst data => Sys2Proof.Machine.execIcmpv6Echo port src dst data s
  | .neighbourDiscovery port src target => Sys2Proof.Machine.execNeighbourDiscovery port src target s
  | .promptTimeout req t => Sys2Proof.Machine.execPromptTimeout req t s
  | .requestTtl req t => Sys2Proof.Machine.execRequestTtl req t s
  | .endResendTimer req parityOk t => Sys2Proof.Machine.execEndResendTimer req parityOk t s
  | .endingTimeout req t => Sys2Proof.Machine.execEndingTimeout req t s
  | .requestAdmit p t => Sys2Proof.Machine.execRequestAdmit p t s
  | .graphInstantiate req t => Sys2Proof.Machine.execGraphInstantiate req t s
  | .decodeHandoff req room t => Sys2Proof.Machine.execDecodeHandoff req room t s
  | .kvSegmentShip req layer head t => Sys2Proof.Machine.execKvSegmentShip req layer head t s
  | .gateJob f env t => Sys2Proof.Machine.execGateJob f env t s
  | .gateJobComplete f parityOk katPass t => Sys2Proof.Machine.execGateJobComplete f parityOk katPass t s
  | .adaptStepDeadline p step t => Sys2Proof.Machine.execAdaptStepDeadline p step t s
  | .traverseFlit link ftype fseq ackseq nak dvc cvc credits first payload crc symErrs => Sys2Proof.Machine.execTraverseFlit link ftype fseq ackseq nak dvc cvc credits first payload crc symErrs s
  | .traverseLinkSilence link t => Sys2Proof.Machine.execTraverseLinkSilence link t s
  | .traverseRetrainEnd link ok t => Sys2Proof.Machine.execTraverseRetrainEnd link ok t s
  | .write fr t => Sys2Proof.Machine.execWrite fr t s
  | .add fr env t => Sys2Proof.Machine.execAdd fr env t s
  | .traverseAck fr t => Sys2Proof.Machine.execTraverseAck fr t s
  | .token fr t => Sys2Proof.Machine.execToken fr t s
  | .mailbox fr u t => Sys2Proof.Machine.execMailbox fr u t s
  | .reqctlCancel fr t => Sys2Proof.Machine.execReqctlCancel fr t s
  | .reqctlResend fr t => Sys2Proof.Machine.execReqctlResend fr t s
  | .reqEnd fr t => Sys2Proof.Machine.execReqEnd fr t s
  | .kvseg fr t => Sys2Proof.Machine.execKvseg fr t s
  | .grad fr t => Sys2Proof.Machine.execGrad fr t s
  | .drop fr t => Sys2Proof.Machine.execDrop fr t s
  | .image link fr t => Sys2Proof.Machine.execImage link fr t s
  | .hello link fr t => Sys2Proof.Machine.execHello link fr t s
  | .closure port fr t => Sys2Proof.Machine.execClosure port fr t s
  | .reopen port fr t => Sys2Proof.Machine.execReopen port fr t s
  | .frameAckTimeout tag t => Sys2Proof.Machine.execFrameAckTimeout tag t s
  | .linkFailedTimeout link t => Sys2Proof.Machine.execLinkFailedTimeout link t s
  | .linkTrainingTimeout link t => Sys2Proof.Machine.execLinkTrainingTimeout link t s
  | .linkTrained link t => Sys2Proof.Machine.execLinkTrained link t s
  | .quarantineRetry link t => Sys2Proof.Machine.execQuarantineRetry link t s
  | .probationEnd link t => Sys2Proof.Machine.execProbationEnd link t s
  | .routeRecompute t => Sys2Proof.Machine.execRouteRecompute t s
  | .routesTakeEffect t => Sys2Proof.Machine.execRoutesTakeEffect t s
  | .sync u t => Sys2Proof.Machine.execSync u t s
  | .echo u t => Sys2Proof.Machine.execEcho u t s
  | .relay u t => Sys2Proof.Machine.execRelay u t s
  | .stageWrite u t => Sys2Proof.Machine.execStageWrite u t s
  | .stageRead u t => Sys2Proof.Machine.execStageRead u t s
  | .parcelInfo u t => Sys2Proof.Machine.execParcelInfo u t s
  | .parcelReset u t => Sys2Proof.Machine.execParcelReset u t s
  | .recipeBind u t => Sys2Proof.Machine.execRecipeBind u t s
  | .recipeUnbind u t => Sys2Proof.Machine.execRecipeUnbind u t s
  | .pageAlloc u t => Sys2Proof.Machine.execPageAlloc u t s
  | .pageFree u t => Sys2Proof.Machine.execPageFree u t s
  | .pageEntry u t => Sys2Proof.Machine.execPageEntry u t s
  | .dataIn u t => Sys2Proof.Machine.execDataIn u t s
  | .dataOut u t => Sys2Proof.Machine.execDataOut u t s
  | .maskLoad u t => Sys2Proof.Machine.execMaskLoad u t s
  | .grammarLoad u t => Sys2Proof.Machine.execGrammarLoad u t s
  | .codebookLoad u t => Sys2Proof.Machine.execCodebookLoad u t s
  | .windowSet u t => Sys2Proof.Machine.execWindowSet u t s
  | .graphRun u t => Sys2Proof.Machine.execGraphRun u t s
  | .notifyConfig u t => Sys2Proof.Machine.execNotifyConfig u t s
  | .doorbellSet u t => Sys2Proof.Machine.execDoorbellSet u t s
  | .regRead u t => Sys2Proof.Machine.execRegRead u t s
  | .cairnRead u t => Sys2Proof.Machine.execCairnRead u t s
  | .planLoad u t => Sys2Proof.Machine.execPlanLoad u t s
  | .overlayApply u t => Sys2Proof.Machine.execOverlayApply u t s
  | .sharePublish u t => Sys2Proof.Machine.execSharePublish u t s
  | .shareGrant u t => Sys2Proof.Machine.execShareGrant u t s
  | .shareRevoke u t => Sys2Proof.Machine.execShareRevoke u t s
  | .pageReload u t => Sys2Proof.Machine.execPageReload u t s
  | .tpertAccess u t => Sys2Proof.Machine.execTpertAccess u t s
  | .imageUpdate u t => Sys2Proof.Machine.execImageUpdate u t s
  | .attest u t => Sys2Proof.Machine.execAttest u t s
  | .debugChallenge u t => Sys2Proof.Machine.execDebugChallenge u t s
  | .debugAuthorise u t => Sys2Proof.Machine.execDebugAuthorise u t s
  | .notifyAck u t => Sys2Proof.Machine.execNotifyAck u t s
  | .heldCommandTimeout mbox seq t => Sys2Proof.Machine.execHeldCommandTimeout mbox seq t s
  | .relayTimeout mbox t => Sys2Proof.Machine.execRelayTimeout mbox t s
  | .coalesceTimeout mbox vector ncode t => Sys2Proof.Machine.execCoalesceTimeout mbox vector ncode t s
  | .notifyResendTimer mbox t => Sys2Proof.Machine.execNotifyResendTimer mbox t s
  | .parcelResetComplete p t => Sys2Proof.Machine.execParcelResetComplete p t s
  | .sampleWindow p t => Sys2Proof.Machine.execSampleWindow p t s
  | .i3cPrivateWrite u t => Sys2Proof.Machine.execI3cPrivateWrite u t s
  | .i3cPrivateRead t => Sys2Proof.Machine.execI3cPrivateRead t s
  | .enec events => Sys2Proof.Machine.execEnec events s
  | .disec events => Sys2Proof.Machine.execDisec events s
  | .rstdaa => Sys2Proof.Machine.execRstdaa s
  | .entdaa addr => Sys2Proof.Machine.execEntdaa addr s
  | .setdasa static addr => Sys2Proof.Machine.execSetdasa static addr s
  | .setnewda addr => Sys2Proof.Machine.execSetnewda addr s
  | .setmwl len => Sys2Proof.Machine.execSetmwl len s
  | .setmrl len => Sys2Proof.Machine.execSetmrl len s
  | .getmwl => Sys2Proof.Machine.execGetmwl s
  | .getmrl => Sys2Proof.Machine.execGetmrl s
  | .getpid => Sys2Proof.Machine.execGetpid s
  | .getbcr => Sys2Proof.Machine.execGetbcr s
  | .getdcr => Sys2Proof.Machine.execGetdcr s
  | .getstatus => Sys2Proof.Machine.execGetstatus s
  | .quiescentSwitch t => Sys2Proof.Machine.execQuiescentSwitch t s
  | .applyQuiesceTimeout t => Sys2Proof.Machine.execApplyQuiesceTimeout t s
  | .configFlashWriteDone t => Sys2Proof.Machine.execConfigFlashWriteDone t s
  | .powerOnReset t selfTestOk => Sys2Proof.Machine.execPowerOnReset t selfTestOk s
  | .recoveryRetry t => Sys2Proof.Machine.execRecoveryRetry t s
  | .imageRequestRepeat link t => Sys2Proof.Machine.execImageRequestRepeat link t s
  | .fuseAdvanceDue t => Sys2Proof.Machine.execFuseAdvanceDue t s
  | .fuseBlowComplete t => Sys2Proof.Machine.execFuseBlowComplete t s
  | .lmsCounterWriteDone t => Sys2Proof.Machine.execLmsCounterWriteDone t s
  | .lowerTreeComplete t => Sys2Proof.Machine.execLowerTreeComplete t s
  | .bucketRefill t => Sys2Proof.Machine.execBucketRefill t s
  | .challengeExpire t => Sys2Proof.Machine.execChallengeExpire t s
  | .debugPortOpen t => Sys2Proof.Machine.execDebugPortOpen t s
  | .bypass => Sys2Proof.Machine.execBypass s
  | .idcode => Sys2Proof.Machine.execIdcode s
  | .samplePreload => Sys2Proof.Machine.execSamplePreload s
  | .extest => Sys2Proof.Machine.execExtest s
  | .clamp => Sys2Proof.Machine.execClamp s
  | .highz => Sys2Proof.Machine.execHighz s
  | .dieDebugChain k => Sys2Proof.Machine.execDieDebugChain k s
  | .pllLock => Sys2Proof.Machine.execPllLock s
  | .dividerSwitchStop ctr => Sys2Proof.Machine.execDividerSwitchStop ctr s
  | .dividerSwitchResume => Sys2Proof.Machine.execDividerSwitchResume s
  | .trimRampComplete => Sys2Proof.Machine.execTrimRampComplete s
  | .clockFault cause t => Sys2Proof.Machine.execClockFault cause t s
  | .stationReadyTimeout n t => Sys2Proof.Machine.execStationReadyTimeout n t s
  | .stationWakeComplete n t => Sys2Proof.Machine.execStationWakeComplete n t s
  | .inputPowerSample watts vin t => Sys2Proof.Machine.execInputPowerSample watts vin t s
  | .projectionWindow lower t => Sys2Proof.Machine.execProjectionWindow lower t s
  | .guardLower t => Sys2Proof.Machine.execGuardLower t s
  | .powerUp vin resetHigh => Sys2Proof.Machine.execPowerUp vin resetHigh s
  | .resetNLow t => Sys2Proof.Machine.execResetNLow t s
  | .resetNHigh modsel selfTestOk => Sys2Proof.Machine.execResetNHigh modsel selfTestOk s
  | .sagEnter vin t => Sys2Proof.Machine.execSagEnter vin t s
  | .sagEnd vin t => Sys2Proof.Machine.execSagEnd vin t s
  | .boostWithheld vin t => Sys2Proof.Machine.execBoostWithheld vin t s
  | .abortEnter vin t => Sys2Proof.Machine.execAbortEnter vin t s
  | .abortExit vin t => Sys2Proof.Machine.execAbortExit vin t s
  | .shutdown vin t => Sys2Proof.Machine.execShutdown vin t s
  | .railFault rail t => Sys2Proof.Machine.execRailFault rail t s
  | .lockstepDisagree pair t => Sys2Proof.Machine.execLockstepDisagree pair t s
  | .dieTempReading die sensors t => Sys2Proof.Machine.execDieTempReading die sensors t s
  | .maintenanceWindowOpen t => Sys2Proof.Machine.execMaintenanceWindowOpen t s
  | .benchmarkRead n slack ro t => Sys2Proof.Machine.execBenchmarkRead n slack ro t s
  | .marginReplan t => Sys2Proof.Machine.execMarginReplan t s
  | .operatingHoursTick t => Sys2Proof.Machine.execOperatingHoursTick t s
  | .cairnRecordClose t => Sys2Proof.Machine.execCairnRecordClose t s
  | .cairnPeriodEnd t => Sys2Proof.Machine.execCairnPeriodEnd t s
  | .cairnFlush t => Sys2Proof.Machine.execCairnFlush t s
  | .cageModuleInserted cage t => Sys2Proof.Machine.execCageModuleInserted cage t s
  | .cagePowerOn cage t => Sys2Proof.Machine.execCagePowerOn cage t s
  | .cageOvercurrent cage t => Sys2Proof.Machine.execCageOvercurrent cage t s
  | .pwrCageFaultWrite v t => Sys2Proof.Machine.execPwrCageFaultWrite v t s
  | .tpertClearAll t => Sys2Proof.Machine.execTpertClearAll t s
  | .registerWrite r ix v => Sys2Proof.Machine.execRegisterWrite r ix v s
  | .selfRefreshExit stack t => Sys2Proof.Machine.execSelfRefreshExit stack t s
  | .cageModuleRemoved cage t => Sys2Proof.Machine.execCageModuleRemoved cage t s
  | .servingLinkDown port t => Sys2Proof.Machine.execServingLinkDown port t s
  | .servingLinkUp port t => Sys2Proof.Machine.execServingLinkUp port t s
  | .keyStoreWriteDone t => Sys2Proof.Machine.execKeyStoreWriteDone t s
  | .testLogicReset trst => Sys2Proof.Machine.execTestLogicReset trst s

end Sys2Proof.Machine
end

