-- ==== Sys2Proof/Certificates/Slice0/Obligations.lean ====
section
/-!
DEFINITION. The statements for the provers: each says, for every state and operands that meet its conditions, what the state is after
a command, and with it that the command completes and what it leaves as it was.
-/

namespace Sys2Proof.Claim
open Sys2Proof Sys2Proof.Machine

/-- Station `n` takes an operation of bundle slot `k`: it runs, waits for nothing, and either its open bundle has no later slot yet or no
event of its units is due (R152, R232), and neither a fault nor a check error waits for a later field of it (R254, R549). -/
abbrev Accepts (s : State) (n k : Nat) : Prop :=
  (s.stn n).mode = .running ∧ (s.stn n).core.task.ended = false ∧ (s.stn n).held = none ∧
  ((s.stn n).snap.isSome = true → nextSlot (s.stn n).ops ≤ k ∧ (s.stn n).doubt = none ∧ (s.stn n).rerun = none) ∧
  ((s.stn n).snap.isSome = false → (s.stn n).ready = true)

/-- `s` with operation `i` of slot `k` in the bundle of Station `n`, whose core is `c`. Nothing else of the module differs. -/
def issued (s : State) (n k : Nat) (i : Instr) (c : StCore) : State :=
  s.setStn n { s.stn n with
    core := c
    snap := some ((s.stn n).snap.getD (s.stn n).core)
    ops := (if (s.stn n).snap.isSome then (s.stn n).ops else []) ++ [(k, i)] }

/-- A core with one more result on its way, which reaches `d` at the end of the tick that is `lat` ticks long from here (R218). -/
def sched (c : StCore) (lat : Nat) (d : Dest) (v : BitVec 64) (vec : List Lns) : StCore :=
  { c with pend := c.pend ++ [{ due := c.tick + lat - 1, dest := d, bits := v, vec := vec }] }

/-- The accesses of a port to `len` bytes from `a` in the present tick (R222). -/
def reads (c : StCore) (port a len : Nat) : List Access :=
  (lineStarts a len).map fun b =>
    { tick := c.tick, port := port, bank := (bankLine c.task.image b).1, line := (bankLine c.task.image b).2, addr := max a b }

/-- `t` differs from `s` in Station `n` only. -/
def OnlyStation (s t : State) (n : Nat) : Prop :=
  (∀ m, m ≠ n → t.stn m = s.stn m) ∧ t = { s with stns := t.stns }

/-- Registers, results on their way, program position, time and generators are the same. -/
def KeepsRegisters (c d : StCore) : Prop :=
  d.scalars = c.scalars ∧ d.vregs = c.vregs ∧ d.vscale = c.vscale ∧ d.pend = c.pend ∧ d.spw = c.spw ∧ d.pc = c.pc ∧ d.loops = c.loops ∧
    d.tick = c.tick ∧ d.atick = c.atick ∧ d.gens = c.gens

/-- The register that a result reaches, as kind and key. -/
def regKey : Dest → Nat × Nat
  | .scalar k => (0, k)
  | .vector e k => (1, e * 32 + k)
  | .vscale e => (2, e)
  | .stream k => (3, k)

/-- The register of a result holds its value. -/
def Landed (c : StCore) (p : Pend) : Prop :=
  match p.dest with
  | .scalar k => c.sreg k = p.bits.setWidth 32
  | .vector e k => c.vreg e k = p.vec
  | .vscale e => c.vscl e = p.bits.setWidth 16
  | .stream k => c.stream k = p.bits

/-- A bundle of Station `n` that its control operation can close: no unit of the Station is busy, no two results of the tick reach one
register (R233), no access of a task other than a test touches the test window (R223), no bank has a conflict (R227), and no copy moves bytes (R248). -/
abbrev Closes (s : State) (n : Nat) : Prop :=
  let c := s.core n
  Accepts s n 10 ∧ c.recs = [] ∧ c.fins = [] ∧ c.drains = [] ∧ c.packs = [] ∧ c.terns = [] ∧ c.strips = [] ∧ c.fills = [] ∧
  c.load = none ∧ c.task.desc.relaxed = false ∧
  (c.results.map regKey).Nodup ∧ (∀ d ∈ c.dmas, d.mop = 3 → d.done = true ∨ d.len ≤ d.moved) ∧
  (c.task.kat = true ∨ (c.present none c.accs).all (fun a => decide (a.bank < 24 ∨ a.line < windowLine)) = true) ∧
  bankConflict c.task.image false (c.present none c.accs) (c.dmas.flatMap (·.banks)).eraseDups = none

/-- What closing a bundle does apart from the program's next place: the tick ends, results and writes that are due take place (R218, R222),
and memory, slots and every other Station are as before. -/
def TickEnds (s t : State) (n : Nat) : Prop :=
  let c := s.core n
  let d := t.core n
  d.tick = c.tick + 1 ∧ d.atick = c.atick + 1 ∧ (∀ p ∈ c.pend, p.due ≤ c.tick → Landed d p) ∧
  d.pend = c.pend.filter (fun p => decide (c.tick < p.due)) ∧ d.spw = [] ∧
  (t.stn n).scratch = (c.spw.foldl (fun (x : Station) w => x.sput w.1 w.2) (s.stn n)).scratch ∧
  (t.stn n).snap = none ∧ (t.stn n).ops = [] ∧ (t.stn n).mode = .running ∧ d.slots = c.slots ∧ d.gens = c.gens ∧
  ctrGet d.ctr SC.run.num = ctrGet c.ctr SC.run.num + 1 ∧ OnlyStation s t n

/-- The block at a position of a packed-block handle in the scratchpad has a good header and lies in range (R41, R550). -/
abbrev GoodBlock (s : State) (n : Nat) (h : Handle) (pos : Nat) : Prop :=
  let hd := hdrOf ((s.stn n).sbytes (h.blockAt pos) 8)
  h.scratch = true ∧ hdrCheck h.pitch hd = none ∧ h.blockAt pos + 8 ≤ scratchSize ∧ h.blockAt pos + burst hd.w ≤ scratchSize

/-- The elements of that block and their exponents. -/
def blockQ (s : State) (n : Nat) (h : Handle) (pos : Nat) : List Int × List Int :=
  let hd := hdrOf ((s.stn n).sbytes (h.blockAt pos) 8)
  (blockElems false hd (((s.stn n).sbytes (h.blockAt pos) (burst hd.w)).drop 8), hd.es)

/-- No perturbation entry holds a target or has been written. -/
abbrev Unperturbed (s : State) : Prop := s.dep.tperts = []

/-- No word of Station `n` holds an error, stored or forced (R253, R527). -/
abbrev Sound (s : State) (n : Nat) : Prop := Unperturbed s ∧ (s.stn n).flips = []

/-- No command of a mailbox waits, is held or follows a SYNC, and no unmap waits. -/
abbrev NothingWaits (s : State) : Prop :=
  s.mem.unmapWait = [] ∧ ∀ m, m < 17 → (s.box m).wait = none ∧ (s.box m).sync = [] ∧ (s.box m).held = []

/-- A good flit of a type that a direction of a weight-store link in service expects: its CRC is that of its bytes (R303 to R305). -/
abbrev InOrder (s : State) (w : Fin 16) (up : Bool) (type : Nat) (fl : WFlit) : Prop :=
  s.wslLive w = true ∧ flitOk type fl = true ∧ flitLegal fl type = true ∧ ((s.wslOf w).dir up).expect = fl.seq.toNat

/-- The flit that the stack of a link sends as its `i`-th from here on: its SEQ is the next of the direction, its CRC that of its bytes
(R303, R305). -/
def stackFlit (x : Wsl) (i type tag aux : Nat) (pay : List Byte) : WFlit :=
  let f : WFlit := { seq := BitVec.ofNat 12 (x.up.send + i), tag := BitVec.ofNat 8 tag, aux := BitVec.ofNat 8 aux, payload := fit 0 256 pay,
                     errs := 0, crc := 0 }
  { f with crc := crc32c (flitBytes f type) }

/-- `t` is `s` but for what a flit taken in order does to its link, and the memory system and what left it differ only in what `t` says
of them: the direction expects the next flit, one taken from the Girdle waits for its ACK, an ACK leaves, and the other direction has
carried the `n` flits that the stack sends. -/
def FlitTaken (s t : State) (w : Fin 16) (up : Bool) (fl : WFlit) (n : Nat) : Prop :=
  ((t.wslOf w).dir up).expect = (fl.seq.toNat + 1) % 4096 ∧
  ((t.wslOf w).dir up).unacked = ((s.wslOf w).dir up).unacked ++ (if up then [] else [fl.seq.toNat]) ∧
  (t.wslOf w).dir (!up) = (List.range n).foldl (fun d _ => d.sent 12) ((s.wslOf w).dir (!up)) ∧
  Out.wslCtl w (!up) false fl.seq.toNat ∈ t.out ∧
  t = { s with mem := t.mem, out := t.out, free := t.free }

/-- A client frame that its port, whose receive queue has room, takes for Parcel `p` (R332 to R334, R338, R408). -/
abbrev Taken (s : State) (kind : Nat) (fr : SFrame) (p : Nat) : Prop :=
  s.portLive (some fr.port) = true ∧ sframeWire fr ≤ 9216 ∧ s.frameParcel fr = some p ∧ fr.full = false ∧ frameIllegal kind fr = false ∧ s.notServing p kind = false ∧
  (kind ≠ 1 → s.tokenCheck p kind fr = false)

/-- The frame of a kind that a request's client is sent next (R335, R336), with the entry's own number. -/
def toClientOut (s : State) (r kind : Nat) (st : Status) (off : Nat) (pay : List Byte) : Out :=
  let q := s.req r
  .serving ((s.servPort q.port).getD 0) q.addr q.udp kind (q.frames % 65536) q.tag r true st s.own off pay

/-- Request `r` has ended with a status: its entry is ENDING, its END frame has left, it waits in no queue (R340, R342). Memory is as it
was. -/
def Ended (s t : State) (r : Nat) (st : Status) : Prop :=
  let q := s.req r
  (t.req r).st = .ending ∧ (t.req r).endSt = st ∧ (t.req r).endAt = s.aon ∧ (t.req r).gen = q.gen ∧ (t.req r).endSends = 1 ∧
  (∃ pay, (t.req r).endPay = pay ∧ toClientOut s r 0x83 st 0 pay ∈ t.out) ∧
  (t.parcel q.parcel).queue = (s.parcel q.parcel).queue.filter (fun x => x != r) ∧ t.mem.cells = s.mem.cells ∧ t.mem.pages = s.mem.pages ∧
  ∀ x, x ≠ r → (t.req x).gen = (s.req x).gen

/-- A frame for this module whose turn it is on its port: the port has an ACTIVE link and expects its PSEQ, no later frame came early, and
its TYPE is its row's (R372, R374, R377). -/
abbrev Arrives (s : State) (fr : TFrame) (p : Nat) : Prop :=
  s.pwr.powered = true ∧ s.pwr.silent = false ∧ s.sec.boot = 7 ∧ s.trv.survey.isSome = true ∧ (s.activeMembers p).isEmpty = false ∧
  (s.tport p).rx = fr.pseq.toNat ∧ (s.tport p).early = [] ∧ fr.typ = none ∧ ¬ (fr.src.toNat = s.own ∧ fr.dest.toNat = s.own)

/-- A frame that arrives for this module and passes every check of R375. -/
abbrev Lands (s : State) (kind : Nat) (fr : TFrame) : Prop :=
  Arrives s fr fr.port ∧ fr.dest.toNat % 4096 = s.own ∧ s.frameCheck kind fr = none

/-- `t` comes from a state in which nothing had left since `s` by sending the ACK of a frame with a status (R374, R376). -/
def Acked (s t : State) (fr : TFrame) (st : Status) : Prop := ∃ w : State, t = w.ackOut fr st ∧ w.out = s.out

/-- Memory, Stations, trackers and requests are the same. -/
def KeepsModule (s t : State) : Prop :=
  t.mem = s.mem ∧ t.stns = s.stns ∧ t.trk = s.trk ∧ t.reqs = s.reqs ∧ t.gates = s.gates ∧ t.sec = s.sec ∧ t.clk = s.clk

/-- A whole and legal unit whose source may use mailbox `m`, which works (R415, R419). -/
abbrev Reaches (s : State) (m : Nat) (u : MUnit) : Prop :=
  unitBox u = m ∧ m ≤ 16 ∧ s.boxWorks m = true ∧ unitWhole u = true ∧ s.permitted m u.source = true ∧ unitLegal u = true

/-- A command of an opcode whose turn it is: it is NEXT, or a SYNC, and nothing waits or is held (R416, R417). -/
abbrev OnTurn (s : State) (m : Nat) (u : MUnit) (op : Nat) : Prop :=
  Reaches s m u ∧ u.ukind = 1#8 ∧ u.code.toNat = op ∧ (op = 1 ∨ u.seq = (s.box m).next) ∧ NothingWaits s

/-- A command whose turn it is and which passes checks 1 to 5 of R425. -/
abbrev MayRun (s : State) (m : Nat) (u : MUnit) (op : Nat) : Prop := OnTurn s m u op ∧ s.cmdCheck m op u.payload = none

/-- The state in which such a command has its effect: it is counted, it executes, and NEXT stands behind it (R416, R438). -/
def begun (s : State) (m : Nat) (u : MUnit) : State :=
  ((s.boxCount m .cmds).modBox m fun b => { b with next := u.seq + 1 }).modBox m fun b => { b with wait := some u }

/-- The command has been answered with a status and a payload: NEXT stands behind it, nothing executes, the response is cached first and has
the SEQ and TAG of the command (R416, R417). -/
def Answered (t : State) (m : Nat) (u : MUnit) (st : Status) (pay : List Byte) : Prop :=
  (t.box m).next = u.seq + 1 ∧ (t.box m).wait = none ∧ (t.box m).cache.head? = some { seq := u.seq, code := st, tag := u.tag, pay := pay }

/-- The command keeps its response for later. -/
def Executing (t : State) (m : Nat) (u : MUnit) : Prop := (t.box m).next = u.seq + 1 ∧ (t.box m).wait = some u

/-- No command of a mailbox is held or follows a SYNC. -/
abbrev NoneHeld (s : State) : Prop := ∀ m, m < 17 → (s.box m).sync = [] ∧ (s.box m).held = []

/-- `t` is `s` but for records of the Cairn and the counters of the clock, power and dependability. -/
def OnlyRecords (s t : State) : Prop := t = { s with cairn := t.cairn, pwr := { s.pwr with ctr := t.pwr.ctr } }

/-- `t` is `s` after an internal reset: Stations, trackers, Parcels, requests, mailboxes and links are as after reset, ports and links are
silent, keys and measurements are gone, Tiers N and H read 0, and Tier W is kept when no write was under way (R485, R492, R498). -/
def Cleared (s t : State) : Prop :=
  t.stns = [] ∧ t.trk = .reset ∧ t.parcels = [] ∧ t.reqs = [] ∧ t.gates = [] ∧ t.mbox = [] ∧ t.trv = .reset ∧ t.i3c = .reset ∧
  t.pwr.silent = true ∧ t.panel.link0 = false ∧ t.panel.link1 = false ∧ t.sec.boot = 0 ∧ t.sec.keys = false ∧ t.sec.m = [] ∧
  (∀ k, k < 20 * 2 ^ 38 → t.mem.get k = 0) ∧
  (s.mem.wjobs.any (·.busy) = false → ∀ k, 20 * 2 ^ 38 ≤ k → t.mem.get k = s.mem.get k)

/-- The Base Plan that a boot puts into force: the stored one whose digest is the recorded one, else the factory one (R445, R459). -/
def bootPlan (s : State) : PlanObj := match s.plan.stored with
  | some p => if s.digestOk 0 p.bytes then p else Plan.reset.force
  | none => Plan.reset.force

/-- The module has booted its image from state `s` (R457, R463): the sequence is complete and the ports are open; M0 and M1 hold the ROM
version with the fuses and the image, and the Base Plan is in force in its INIT_MODE. -/
def Booted (s t : State) : Prop :=
  t.sec.boot = 7 ∧ t.sec.recover = none ∧ t.sec.keys = true ∧ t.sec.locked = true ∧ t.sec.open' = false ∧ t.pwr.silent = false ∧
  t.sec.build = le s.sec.image.bytes 12 4 ∧ t.sec.runSvn = le s.sec.image.bytes 6 2 ∧ t.sec.svn = s.sec.svn ∧
  tget 0 t.sec.m 0 = Config.sha384 (bytes48 0 ++ bytes48 (Config.sha384 (Config.romVersion ++ natLe 1 s.sec.svn ++ natLe 1 s.sec.dbg))) ∧
  tget 0 t.sec.m 1 = Config.sha384 (bytes48 0 ++ bytes48 (Config.sha384 (imageBody s.sec.image.bytes))) ∧
  t.plan.force = bootPlan s ∧ t.plan.mode = ((findEntry (bootPlan s).entries 0x0001 0xFF 0).map fun v => le v 0 1).getD 1

/-- The ROM has entered recovery: all sources are still to be tried, and links T0 to T8 train (R468). -/
def Recovering (t : State) : Prop :=
  (∃ r, t.sec.recover = some r ∧ r.link = 18 ∧ r.since = t.aon ∧ r.reqs = [] ∧ r.got = []) ∧ t.sec.boot = 2 ∧
  ∀ k, k < 9 → (t.tlink k).st = .training ∧ (t.tlink k).since = t.aon

/-- What a boot from state `s` leads to: a failed self-test halts the Bezel, a good image runs, another leads to recovery (R457, R458, R468). -/
def BootLeads (s t : State) (ok : Bool) : Prop :=
  let good : Prop := s.sec.image.valid = true ∧ imageCheck s.sec.svn s.sec.image.bytes = none
  (ok = false → t = { s with sec := { s.sec with halted := true } }) ∧ (ok = true → good → Booted s t) ∧
  (ok = true → ¬ good → Recovering t)

/-- Writing `v` to a register clears the bits of a mask that are 1 in `v`, and no other (R7). -/
def Clears {w : Nat} (old new mask v : BitVec w) : Prop :=
  ∀ k, k < w → new.getLsbD k = (old.getLsbD k && !(mask.getLsbD k && v.getLsbD k))

/-- The clock of `t` is `c`, with a switch of the divider begun where the largest limit is not the divider in force and neither a switch nor a ramp
of the trim is under way (R479 to R482); apart from records `t` is `s`. -/
def Retargets (s t : State) (c : Clk) : Prop :=
  let d := State.divLimit { s with clk := c }
  t.clk = (if c.switch = none ∧ c.ramp = none ∧ d ≠ c.div then { c with switch := some (c.div, d, false) } else c) ∧
  OnlyRecords { s with clk := t.clk } t

end Sys2Proof.Claim

open Sys2Proof Sys2Proof.Machine Sys2Proof.Claim

/-! ### Bundle slots -/

/-- A slot that carries no operation issues and changes nothing but the record of the bundle (R79, R154, R185, R239, R243, R248). The
control operations close their bundle: its tick ends, results and writes land, and the program goes on behind the bundle, into or past a
loop's body, or ends (R218, R222, R235 to R238, R248, R254). Choices of the model in it: log entries 28, 29, 32, 34, 102 and 103. -/
def Obligations.BundlesClose : Prop :=
  (∀ (s : State) (n : Stn) (e : Fin 4),
     let empty (k : Nat) (i : Instr) : Prop := Accepts s n k → exec i s = .next (issued s n k i (s.core n))
     empty 0 (.anop n false 0 0) ∧ empty 9 (.anop n true 0 0) ∧ empty 1 (.dnop n 0 0) ∧ empty 2 (.rnop n 0 0) ∧
     empty (3 + e) (.vnop n e 0 0 0 0 0) ∧ empty 7 (.snop n 0 0 0 0 0) ∧ empty 8 (.mnop n 0 0 0 0 0 0)) ∧
  (∀ (s : State) (n : Stn) (bm1 : BitVec 12) (csrc : Bool) (sc : BitVec 5) (ch : Bool) (imm : BitVec 17) (mask : BitVec 16),
     Closes s n →
     let c := s.core n
     let c0 := (s.stn n).snap.getD c
     let nb := c.task.image.nb
     let body := bm1.toNat + 1
     let next := afterBundle c.loops c.pc
     let trips := if csrc then bits (c.sreg sc.toNat).toNat (16 * b2n ch + 15) (16 * b2n ch) else imm.toNat
     (next.1 < nb → ∃ t, exec (.cnop n 0 0 Env.clean) s = .next t ∧ TickEnds s t n ∧ (t.core n).pc = next.1 ∧ (t.core n).loops = next.2) ∧
     ((if csrc then imm = 0 else sc = 0 ∧ ch = false) → c.loops.length < 4 → c.pc + body < nb →
       (∀ l r, c.loops = l :: r → c.pc + body ≤ l.pc + l.body) →
       (trips = 0 → (afterBundle c.loops (c.pc + body)).1 < nb) →
       ∃ t, exec (.loop n bm1 csrc sc ch imm Env.clean) s = .next t ∧ TickEnds s t n ∧
         ((t.core n).pc, (t.core n).loops) = (if trips = 0 then afterBundle c.loops (c.pc + body)
           else (c.pc + 1, { pc := c.pc, body := body, trips := trips } :: c.loops))) ∧
     ((∀ d ∈ c.dmas, mask.toNat / 2 ^ d.tag % 2 = 1 → d.done = true) → next.1 < nb →
       ∃ t, exec (.dwait n mask 0 Env.clean) s = .next t ∧ TickEnds s t n ∧ (t.core n).pc = next.1 ∧
         (t.core n).dmas = c.dmas.filter fun d => mask.toNat / 2 ^ d.tag % 2 != 1) ∧
     ((s.stn n).wc = [] → c0.stepHold = 0 → (∀ d ∈ c0.dmas, d.done = true) → c0.union = 0 → next.1 < nb →
       ∃ t, exec (.step n 0 Env.clean) s = .next t ∧ TickEnds s t n ∧ (t.core n).pc = next.1 ∧ (t.core n).stepped = true ∧
         (t.core n).saved = (if c0.saved.tick = c0.tick
           then { c0.save with reruns := c0.saved.reruns, failed := c0.saved.failed } else c0.save)) ∧
     ((s.stn n).wc = [] →
       ∃ t, exec (.endProg n 0 Env.clean) s = .next t ∧ TickEnds s t n ∧ (t.core n).task.ended = true ∧ (t.core n).task.endTick = c.tick ∧
          (t.core n).task.desc = c.task.desc))

/-- The scalar operations on registers: each brings S[SD] its value at the end of its tick (R219, R239). Choices of the model in it: log
entry 28. -/
def Obligations.ScalarResults : Prop :=
  ∀ (s : State) (n : Stn) (sd sa sb : BitVec 5) (imm : BitVec 27) (lo : BitVec 16),
    Accepts s n 7 →
    let c := s.core n
    let a := c.sreg sa.toNat
    let b := c.sreg sb.toNat
    let done (i : Instr) (v : BitVec 32) : Prop :=
      exec i s = .next (issued s n 7 i (sched c 1 (.scalar sd.toNat) (v.setWidth 64) []))
    done (.sadd n sd sa sb 0) (a + b) ∧ done (.ssub n sd sa sb 0) (a - b) ∧ done (.sand n sd sa sb 0) (a &&& b) ∧
    done (.sor n sd sa sb 0) (a ||| b) ∧ done (.sxor n sd sa sb 0) (a ^^^ b) ∧
    done (.sshl n sd sa sb 0) (a <<< (b.toNat % 32)) ∧ done (.sshr n sd sa sb 0) (a >>> (b.toNat % 32)) ∧
    done (.saddi n sd sa 0 (lo.setWidth 27)) (a + lo.signExtend 32) ∧
    done (.sli n sd 0 0 imm) (imm.setWidth 32) ∧
    done (.slih n sd 0 0 (lo.setWidth 27)) (lo ++ (c.sreg sd.toNat).setWidth 16)

/-- SSET and SPOS: a stream register takes S[SB] : S[SA] after two ticks, and S[SD] the position of a stream as it stands at the start of
the tick (R219, R233, R239, R240). Choices of the model in it: log entry 28. -/
def Obligations.StreamRegisters : Prop :=
  ∀ (s : State) (n : Stn) (sd sa sb : BitVec 5) (k : Fin 12),
    Accepts s n 7 →
    let c := s.core n
    let v : BitVec 64 := c.sreg sb.toNat ++ c.sreg sa.toNat
    let i : Instr := .sset n 0 sa sb (BitVec.ofNat 27 k)
    let j : Instr := .spos n sd 0 0 (BitVec.ofNat 27 k)
    (streamReserved k v = false → exec i s = .next (issued s n 7 i (sched c 2 (.stream k) v []))) ∧
    exec j s = .next (issued s n 7 j (sched c 1 (.scalar sd.toNat)
      (((((s.stn n).snap.getD c).stream k) >>> 32)) []))

/-- The vector operations that work lane by lane or over the lanes of one register: L[VD] takes its lanes after the latency of R219, and the
flags of R70 and counters of R71 take what the lanes met (R48 to R51, R136, R244). VCVT: 256 elements of a block in the scratchpad whose
header is good become lanes of L[VD], with the flags of R70 that they meet (R52, R245). Choices of the model in it: log entries 28 and 128. -/
def Obligations.VectorResults : Prop :=
  (∀ (s : State) (n : Stn) (e : Fin 4) (vd va vb : BitVec 5) (lane : BitVec 8) (lo : BitVec 16),
     Accepts s n (3 + e) →
     let c := s.core n
     let a := c.vreg e va.toNat
     let b := c.vreg e vb.toNat
     let done (i : Instr) (lat : Nat) (r : List Lns) (ev : FmtEv) : Prop :=
       exec i s = .next (issued s n (3 + e) i (sched (c.fmt ev) lat (.vector e vd.toNat) 0 r))
     let two (i : Instr) (lat : Nat) (f : Lns → Lns → Lns × FmtEv) : Prop :=
       done i lat (List.zipWith (fun x y => (f x y).1) a b) ((List.zipWith (fun x y => (f x y).2) a b).foldl FmtEv.add {})
     two (.vadd n e vd va vb 0) 3 lnsAdd ∧ two (.vsub n e vd va vb 0) 3 lnsSub ∧
     two (.vmul n e vd va vb 0) 1 lnsMul ∧ two (.vdiv n e vd va vb 0) 1 lnsDiv ∧
     done (.vmax n e vd va vb 0) 1 (List.zipWith (fun x y => lnsCanon (if lnsGe x y then x else y)) a b) {} ∧
     done (.vmin n e vd va vb 0) 1 (List.zipWith (fun x y => lnsCanon (if lnsGe y x then x else y)) a b) {} ∧
     done (.vcmpge n e vd va vb 0) 1 (List.zipWith (fun x y => if lnsGe x y then 0x0000#16 else lnsZero) a b) {} ∧
     done (.vneg n e vd va 0 0) 1 (a.map lnsNeg) {} ∧
     done (.vexp2 n e vd va 0 0) 2 (a.map fun x => (lnsExp2 x).1) ((a.map fun x => (lnsExp2 x).2).foldl FmtEv.add {}) ∧
     done (.vbcast n e vd va 0 (lane.setWidth 35)) 1 (List.replicate 256 (lnsCanon (a.getD lane.toNat lnsZero))) {} ∧
     done (.vimm n e vd 0 0 (lo.setWidth 35)) 1 (List.replicate 256 (lnsCanon lo)) {} ∧
     done (.vrmax n e vd va 0 0) 8
       ([lnsCanon (lnsMax a), BitVec.ofNat 16 (largestLane a).2] ++ List.replicate 254 lnsZero) {} ∧
     done (.vrsum n e vd va 0 0) 24 (fit lnsZero 256 ((sumLevels 8 a).1.map lnsCanon)) (sumLevels 8 a).2 ∧
     exec (.vsets n e 0 0 0 (lo.setWidth 35)) s = .next (issued s n (3 + e) (.vsets n e 0 0 0 (lo.setWidth 35))
       (sched c 1 (.vscale e) ((lnsCanon lo).setWidth 64) []))) ∧
  (∀ (s : State) (n : Stn) (e : Fin 4) (vd : BitVec 5) (aux : BitVec 35),
     Accepts s n (3 + e) → Sound s n →
     let c := s.core n
     let x := s.stn n
     let a := c.vaddr aux 32
     let half := bits aux.toNat 13 13
     let plane := bits aux.toNat 12 12 == 1
     let hd := hdrOf (x.sbytes a 8)
     let last := (((cvtPieces hd.w half plane).getLast?).map fun p => p.1 + p.2).getD 8
     let rs := ((List.range 256).zip (((blockElems plane hd (x.sbytes (a + 8) (64 * hd.w))).drop (256 * half)).take 256)).map fun p =>
       lnsOfElem p.2 (hd.es.getD ((256 * half + p.1) / 64) 0) (c.vscl e)
     let i : Instr := .vcvt n e vd 0 0 aux Env.clean
     bits aux.toNat 11 0 = 0 → a % 8 = 0 → a + 8 ≤ scratchSize → hdrCheck12 hd = none → a + last ≤ scratchSize →
     ∃ acc, exec i s = .next (issued s n (3 + e) i (sched { c.fmt ((rs.map (·.2)).foldl FmtEv.add {}) with accs := acc }
       (if isFar c.task.image a last then 7 else 5) (.vector e vd.toNat) 0 (rs.map (·.1)))))

/-- Reads of the scratchpad whose address is aligned and in range and whose words hold no error: the port's accesses are recorded, and the
register takes the bytes read, two ticks later from a far bank (R219, R221, R239, R243, R550). Choices of the model in it: log entries 28,
34 and 35. -/
def Obligations.ScratchpadReads : Prop :=
  ∀ (s : State) (n : Stn) (e : Fin 4) (d va sa : BitVec 5) (lo : BitVec 16) (aux : BitVec 35),
    Sound s n →
    let c := s.core n
    let x := s.stn n
    let near (a len lat : Nat) : Nat := if isFar c.task.image a len then lat + 2 else lat
    let a := c.saddr sa.toNat (lo.setWidth 27)
    let v := c.vaddr aux 32
    let i : Instr := .sld n d sa 0 (lo.setWidth 27) Env.clean
    let j : Instr := .vld n e d 0 0 aux Env.clean
    let k : Instr := .vmskld n e d va 0 aux Env.clean
    (Accepts s n 7 → a % 4 = 0 → a + 4 ≤ scratchSize →
      exec i s = .next (issued s n 7 i (sched { c with accs := c.accs ++ reads c 7 a 4 } (near a 4 3) (.scalar d.toNat)
        (BitVec.ofNat 64 (le (x.sbytes a 4) 0 4)) []))) ∧
    (Accepts s n (3 + e) → bits aux.toNat 13 0 = 0 → v % 32 = 0 → v + 512 ≤ scratchSize →
      exec j s = .next (issued s n (3 + e) j (sched { c with accs := c.accs ++ reads c (3 + e) v 512 } (near v 512 3)
        (.vector e d.toNat) 0 ((List.range 256).map fun l => lnsCanon (BitVec.ofNat 16 (le (x.sbytes v 512) (2 * l) 2)))))) ∧
    (Accepts s n (3 + e) → bits aux.toNat 13 0 = 0 → v % 32 = 0 → v + 32 ≤ scratchSize →
      exec k s = .next (issued s n (3 + e) k (sched { c with accs := c.accs ++ reads c (3 + e) v 32 } (near v 32 3)
        (.vector e d.toNat) 0 (maskLanes (c.vreg e va.toNat) (x.sbytes v 32)))))

/-- Writes to the scratchpad: the bytes are due at the end of the tick and none has changed before (R222, R239, R243, R361, R550). Choices
of the model in it: log entry 28. -/
def Obligations.ScratchpadWrites : Prop :=
  ∀ (s : State) (n : Stn) (e : Fin 4) (va sa sb : BitVec 5) (lo : BitVec 16) (aux : BitVec 35),
    Sound s n →
    let c := s.core n
    let a := c.saddr sa.toNat (lo.setWidth 27)
    let v := c.vaddr aux 32
    let w := c.vaddr aux 4
    let wrote (port at_ : Nat) (bs : List Byte) : StCore :=
      { c with accs := c.accs ++ reads c port at_ bs.length, spw := c.spw ++ [(at_, bs)] }
    let i : Instr := .sst n 0 sa sb (lo.setWidth 27) Env.clean
    let j : Instr := .vst n e 0 va 0 aux
    let k : Instr := .vtcnt n e 0 0 0 aux Env.clean
    (Accepts s n 7 → a % 4 = 0 → a + 4 ≤ scratchSize →
      exec i s = .next (issued s n 7 i (wrote 7 a (natLe 4 (c.sreg sb.toNat).toNat)))) ∧
    (Accepts s n (3 + e) → bits aux.toNat 13 0 = 0 → v % 32 = 0 → v + 512 ≤ scratchSize →
      exec j s = .next (issued s n (3 + e) j (wrote (3 + e) v ((c.vreg e va.toNat).flatMap fun l => natLe 2 (lnsCanon l).toNat)))) ∧
    (Accepts s n (3 + e) → bits aux.toNat 13 0 = 0 → w % 4 = 0 → w + 4 ≤ scratchSize → c.ternFree ≤ c.tick →
      exec k s = .next (issued s n (3 + e) k (wrote (3 + e) w (natLe 4 (tget 0 c.tcount e)))))

/-- VPACK: its block is on its way to the scratchpad, with the registers, the scale and the generators it takes (R246). The ternarisation
operations: VTERN draws from the next tick on, VTSTRIP and VTROW write their strip in tick t + 2 and keep its count word, and the unit is
occupied meanwhile (R361, R362). Choices of the model in it: log entries 28 and 128. -/
def Obligations.PackAndTernarisationBegin : Prop :=
  (∀ (s : State) (n : Stn) (e : Fin 4) (va vb : BitVec 5) (aux : BitVec 35),
     Accepts s n (3 + e) →
     let c := s.core n
     let a := c.vaddr aux 32
     let w := bits aux.toNat 13 11 + 1
     let uns := bits aux.toNat 10 10 == 1
     let gb := bits aux.toNat 8 3
     let ng := 2 ^ bits aux.toNat 2 0
     let i : Instr := .vpack n e 0 va vb aux
     bits aux.toNat 2 0 ≠ 7 → gb + ng ≤ 64 → (w = 1 → uns = true) → a % 8 = 0 → a + burst w ≤ scratchSize →
     c.task.unnamed gb ng [4] = none → c.packLeft e = 0 →
     exec i s = .next (issued s n (3 + e) i { c with packs := c.packs ++
       [{ engine := e, first := c.tick + 2, free := c.tick + 128 / ng, words := [], due := c.tick + 2 + 128 / ng, addr := a,
          xs := c.vreg e va.toNat ++ c.vreg e vb.toNat, sout := c.vscl e, plane := bits aux.toNat 9 9 == 1, uns := uns, w := w,
          gb := gb, ng := ng }] })) ∧
  (∀ (s : State) (n : Stn) (e : Fin 4) (vd va vb : BitVec 5) (aux : BitVec 35),
     Accepts s n (3 + e) → Sound s n →
     let c := s.core n
     let a := c.vaddr aux 32
     let gb := bits aux.toNat 8 3
     let ng := 2 ^ bits aux.toNat 2 0
     let mrg := bits aux.toNat 13 13 == 1
     let ow := if mrg then c.ownerMap vd.toNat else 0
     let strip (c : StCore) (ts : List Int) : StCore :=
       { c with strips := c.strips ++ [{ due := c.tick + 2, engine := e, addr := a,
                                          bytes := ternStrip mrg (bits aux.toNat 12 6) ow ts }],
                ternFree := c.tick + 3, tcount := fput c.tcount e (countWord mrg ow ts) }
     c.ternFree ≤ c.tick →
     (bits aux.toNat 13 9 = 0 → bits aux.toNat 2 0 ≠ 7 → gb + ng ≤ 64 → a % 32 = 0 → a + 32 ≤ scratchSize →
       c.task.unnamed gb ng [6] = none →
       ∃ t j, exec (.vtern n e vd va 0 aux Env.clean) s = .next t ∧ (t.core n).terns = c.terns ++ [j] ∧ j.first = c.tick + 1 ∧
         j.last = c.tick + 64 / ng ∧ j.vd = vd.toNat ∧ j.ws = c.vreg e va.toNat ∧ j.tau = c.vscl e ∧
         (t.core n).ternFree = c.tick + 64 / ng + 1 ∧ (t.core n).vregs = c.vregs ∧ (t.core n).scalars = c.scalars ∧
         (t.core n).slots = c.slots ∧ (t.stn n).scratch = (s.stn n).scratch ∧ t.mem = s.mem ∧
         (∀ m, m ≠ n.val → t.stn m = s.stn m)) ∧
     (bits aux.toNat 5 0 = 0 → (if mrg then vd.toNat % 2 = 0 else vd = 0) → a % 8 = 0 →
       a + (if mrg then 168 else 104) ≤ scratchSize →
       (va.toNat % 2 = 0 → exec (.vtstrip n e vd va vb aux) s = .next (issued s n (3 + e) (.vtstrip n e vd va vb aux)
         (strip (c.placeColumn vb.toNat (c.tritPair e va.toNat)) (c.tritPair e va.toNat)))) ∧
       exec (.vtrow n e vd 0 vb aux) s = .next (issued s n (3 + e) (.vtrow n e vd 0 vb aux)
         (strip c (c.bufferRow (bits (c.sreg vb.toNat).toNat 8 0))))))

/-- MIN, MOUT and MCOPY: the transfer is in flight under its tag and holds the banks it touches; no byte has moved (R228, R248). Choices of
the model in it: log entries 28 and 103. -/
def Obligations.TransfersBegin : Prop :=
  ∀ (s : State) (n : Stn) (sa sb sc : BitVec 5) (tag : BitVec 4),
    Accepts s n 8 →
    let c := s.core n
    let a := (c.sreg sa.toNat).toNat
    let b := (c.sreg sb.toNat).toNat
    let len := (c.sreg sc.toNat).toNat
    let range := bits (c.sreg (sb.toNat + 1)).toNat 11 0 * 2 ^ 32 + b
    let flies (i : Instr) (mop : Nat) (rs : List Nat) (spb r : Nat) : Prop :=
      exec i s = .next (issued s n 8 i { c with dmas := c.dmas ++
        [{ tag := tag.toNat, mop := mop, banks := (rs.flatMap fun x => banksOf c.task.image x len).eraseDups, spa := a, spb := spb,
           range := r, len := len, moved := 0, done := false }] })
    (len % 32 = 0 ∧ 32 ≤ len ∧ len ≤ 16777216 ∧ a % 32 = 0 ∧ a + len ≤ scratchSize) →
    c.dmas.all (fun d => d.tag != tag.toNat || d.done) = true → (c.task.kat = true ∨ a + len ≤ windowBase) →
    (sb.toNat ≠ 31 → range % 32 = 0 →
      (s.pageCheck false c.task.desc.parcel (rpageOf range) = none → flies (.min n sa sb sc tag 0) 1 [a] 0 range) ∧
      (s.pageCheck true c.task.desc.parcel (rpageOf range) = none → flies (.mout n sa sb sc tag 0) 2 [a] 0 range)) ∧
    (overlaps a b len = false → b % 32 = 0 → b + len ≤ scratchSize → (c.task.kat = true ∨ b + len ≤ windowBase) →
      flies (.mcopy n sa sb sc tag 0) 3 [a, b] b 0)

/-! ### Closing a bundle -/

/-! ### Array, drain and Recon slots -/

/-- The array operations issue when the array is free, the plane or bank they need stands ready and their stream names a good block or
tensor: AMAC puts its product into the tree and moves its stream on, the loads take their first tick and begin to fill the inactive plane or
their bank, and BRUN opens its window (R79 to R91, R107 to R119). Choices of the model in it: log entries 28, 31, 33, 34, 105, 122, 129 and
130. -/
def Obligations.ArrayOperationsIssue : Prop :=
  ∀ (s : State) (n : Stn) (slot bm1 : BitVec 6) (swap inLoad blk bank pair add : Bool) (str : BitVec 2) (nm1 : BitVec 9)
    (cnta : BitVec 18) (pem1 : BitVec 3) (h : Handle),
    let c := s.core n
    let c0 := (s.stn n).snap.getD c
    let reg := c0.stream str.toNat
    let wreg := c0.stream (4 + str.toNat)
    let cols := nm1.toNat + 1
    let b := bm1.toNat + 1
    let tile := if swap then c.tileId + 1 else c.tile.id
    let side := b2n (!c.active)
    let first (k size : Nat) : List Byte := (s.stn n).sbytes (h.base + srPos wreg + k * size) size
    let good (size : Nat) (ok : Nat → Prop) : Prop :=
      h.scratch = true ∧ h.base + srPos wreg + min 1024 (cols * size) ≤ scratchSize ∧
        ∀ k, k < min cols (1024 / size) → stripFormat (first k size) = none ∧ ok k
    let loads (i : Instr) (kind : LoadKind) (fills : StCore → Fill) (takes : StCore → Load → Prop) : Prop :=
      ∃ t ld, exec i s = .next t ∧ (h.scratch = true → OnlyStation s t n) ∧ (∀ m, m ≠ n.val → t.stn m = s.stn m) ∧
        KeepsRegisters c (t.core n) ∧ (t.stn n).scratch = (s.stn n).scratch ∧
        (t.core n).load = some ld ∧ ld.kind = kind ∧ ld.n = cols ∧ ld.reg = wreg ∧
        (ld.fault = none → ld.done = 1 ∧ ld.next = c.tick + 1) ∧ (ld.fault ≠ none → ld.done = 0 ∧ ld.next = c.tick) ∧
        fills (t.core n) = .loading ∧ (t.core n).slots = c.slots ∧
        (∀ k, k ≠ 4 + str.toNat → (t.core n).stream k = c.stream k) ∧ takes (t.core n) ld
    let filled (size : Nat) (merged : Bool) (d : StCore) (ld : Load) : Prop :=
      ld.fault = none ∧ (d.plane side).cols = (List.range (min cols (1024 / size))).map fun k => stripColumn merged (first k size)
    Sound s n → c.bruns = [] →
    (Accepts s n 0 → (c.plane (b2n (xor swap c.active))).fill = .full → c.handleOf reg = some h → h.hkind = 0 → h.plane = false →
      GoodBlock s n h (srPos reg) → c.openDeficit slot.toNat tile 0 = 0 →
      ∃ t p, exec (.amac n slot swap str 0 Env.clean) s = .next t ∧ OnlyStation s t n ∧ KeepsRegisters c (t.core n) ∧
        (t.core n).tree = c.tree ++ [p] ∧ p.slot = slot.toNat ∧ p.u = c.atick ∧ p.tile = tile ∧ p.brun = false ∧
        p.terms = macTerms (c.plane (b2n (xor swap c.active))) (blockQ s n h (srPos reg)).1 (blockQ s n h (srPos reg)).2 ∧
        (t.core n).active = (xor swap c.active) ∧ (t.core n).stream str.toNat = srAdvance (c.stream str.toNat) 1 ∧
        ((t.core n).slot slot.toNat).isOpen = true ∧ ((t.core n).slot slot.toNat).tile = tile ∧
        (∀ k, k ≠ slot.toNat → (t.core n).slot k = c.slot k) ∧
        ctrGet (t.core n).ctr SC.arrMac.num = ctrGet c.ctr SC.arrMac.num + 1) ∧
    (Accepts s n (if inLoad then 9 else 0) → (s.stn n).loadInBundle = false → c.load = none → srKind wreg = 1 →
      c.handleOf wreg = some h →
      (h.hkind = 2 → loads (.aloadd n inLoad str nm1 false 0 0 Env.clean) .dense (fun d => (d.plane side).fill)
        (fun d ld => good 104 (fun _ => True) → filled 104 false d ld)) ∧
      (h.hkind = 2 → cnta.toNat * 128 + countTable cols ≤ scratchSize →
        loads (.aloadm n inLoad str nm1 blk cnta 0 Env.clean) .merged (fun d => (d.plane side).fill)
          (fun d ld => good 168 (fun k => mergedChecks blk (first k 168) (le ((s.stn n).sbytes (cnta.toNat * 128 + 4 * k) 4) 0 4) = none) →
            filled 168 true d ld)) ∧
      (h.hkind = 0 → h.plane = true →
        loads (.bload n inLoad str nm1 bank pair 0 Env.clean) .bits (fun d => (d.bank (b2n bank)).fill) (fun _ _ => True))) ∧
    (Accepts s n 0 → slot.toNat + b ≤ 64 → c.load = none → (c.bank (b2n bank)).fill = .full → c.handleOf reg = some h →
      h.hkind = 0 → h.plane = false → GoodBlock s n h (srPos reg) → c.tree = [] →
      ∃ t w, exec (.brun n slot bm1 bank add str false pem1 0 Env.clean) s = .next t ∧ OnlyStation s t n ∧
        KeepsRegisters c (t.core n) ∧ (t.core n).bruns = [w] ∧ w.u = c.atick ∧ w.s0 = slot.toNat ∧ w.b = b ∧ w.bank = b2n bank ∧
        w.pe = pem1.toNat + 1 ∧ w.pass = 0 ∧ (t.core n).plane0 = .empty ∧ (t.core n).plane1 = .empty ∧
        (t.core n).stream str.toNat = srAdvance (c.stream str.toNat) b ∧ (t.core n).slots = c.slots)

/-- The drain operations issue when the unit is free, their fields and generators are legal and the slot need not be waited for: DRAIN and
DRED put one block per output on its way, DINIT sets DI and START of its slots, DFILL fetches a sum block (R142, R154 to R158, R167 to
R170). Choices of the model in it: log entry 28. -/
def Obligations.DrainOperationsIssue : Prop :=
  ∀ (s : State) (n : Stn) (slot nm1 gb : BitVec 6) (out : BitVec 2) (close uns clrs : Bool) (sa sb istr : BitVec 2)
    (ngl wm1 : BitVec 3) (di : BitVec 8) (start : BitVec 2) (h : Handle),
    Accepts s n 1 →
    let c := s.core n
    let c0 := (s.stn n).snap.getD c
    let ng := 2 ^ ngl.toNat
    let td := 128 / ng
    let outs := outputsOf out.toNat sa.toNat sb.toNat
    let x := (if close then c0.closeSlot slot.toNat else c0).slot slot.toNat
    let a := h.blockAt (srPos (c0.stream istr.toNat))
    let drains (i : Instr) (kind : DrainKind) : Prop :=
      ∃ t js, exec i s = .next t ∧ OnlyStation s t n ∧ KeepsRegisters c (t.core n) ∧ (t.core n).drains = c.drains ++ js ∧
        js.map (fun j => (j.kind, j.due, j.vals, j.datum)) =
          ((List.range outs.length).zip outs).map (fun p => (kind, c.tick + 2 + (p.1 + 1) * td, x.shadowOut p.2.1, x.shadowD)) ∧
        (t.core n).drainFree = c.tick + outs.length * td ∧ (close = false → (t.core n).slots = c.slots)
    (out ≠ 0 → ngl ≠ 7 → gb.toNat + ng ≤ 64 → c.task.unnamed gb.toNat ng [3] = none → c.drainFree ≤ c.tick →
      c0.drainHold slot.toNat close = 0 →
      ((wm1 = 0 → uns = true) → c0.outputFault outs 0 (wm1.toNat + 1) = none →
        drains (.drain n slot out close sa sb gb ngl wm1 uns 0) .drain) ∧
      (c0.outputFault outs 1 0 = none →
        (∀ o ∈ outs, ∀ g, c0.handleOf (c0.stream (8 + o.2)) = some g → g.scale = x.shadowScale) →
        drains (.dred n slot out close sa sb gb ngl 0 0) .dred)) ∧
    (slot.toNat + (nm1.toNat + 1) ≤ 64 → start ≠ 3 →
      (clrs = true → ∀ k, slot.toNat ≤ k → k ≤ slot.toNat + nm1.toNat → (c0.slot k).isOpen = false) →
      ∃ t, exec (.dinit n slot nm1 di start clrs 0) s = .next t ∧ OnlyStation s t n ∧ KeepsRegisters c (t.core n) ∧
        ∀ k, (t.core n).slot k = (if slot.toNat ≤ k ∧ k ≤ slot.toNat + nm1.toNat
          then (c.slot k).dinit di.toInt start.toNat clrs else c.slot k)) ∧
    (Sound s n → c0.handleOf (c0.stream istr.toNat) = some h → h.hkind = 1 → h.scratch = true → a + 1544 ≤ scratchSize →
      (c0.slot slot.toNat).isOpen = false → c.drainFree ≤ c.tick →
      ∃ t j, exec (.dfill n slot istr 0 Env.clean) s = .next t ∧ OnlyStation s t n ∧ KeepsRegisters c (t.core n) ∧
        (t.core n).fills = c.fills ++ [j] ∧ j.due = c.tick + 2 ∧ j.slot = slot.toNat ∧
        (j.datum, j.vals) = dfillSet ((s.stn n).sbytes a 1544) ∧ j.scale = h.scale ∧ (t.core n).drainFree = c.tick + 2 ∧
        (t.core n).stream istr.toNat = srAdvance (c.stream istr.toNat) 1 ∧ (t.core n).slots = c.slots)

/-- The Recon operations issue when Recon is free, their parameter block and generators are legal and their stream names a good block: RPRED
and RSEL are on their way, RFIN is to write its lists, RCHK counts its audit and moves its stream on (R185 to R193, R203). Choices of the
model in it: log entries 28, 34, 123 and 129. -/
def Obligations.ReconOperationsIssue : Prop :=
  ∀ (s : State) (n : Stn) (istr : BitVec 2) (pblk : BitVec 18) (tok ntm1 : BitVec 7) (gb : BitVec 6) (bi : BitVec 3) (p : Param)
    (h : Handle),
    Accepts s n 2 → Sound s n →
    let c := s.core n
    let reg := ((s.stn n).snap.getD c).stream istr.toNat
    let ntok := ntm1.toNat + 1
    let d0 := c.tick + p.kb + 2
    let legal (sel : Option Bool) (tok ntok : Nat) : Prop := (s.param n pblk.toNat sel tok ntok Env.clean).2 = .ok p
    let predicts (i : Instr) (sel : Bool) : Prop :=
      ∃ t j, exec i s = .next t ∧ OnlyStation s t n ∧ (t.core n).recs = c.recs ++ [j] ∧ j.next = c.tick + 1 ∧ j.sel = sel ∧
        j.ins.map (·.2) = [blockQ s n h (srPos reg)] ∧ j.par = p ∧ j.tok = tok.toNat ∧ j.draw0 = d0 ∧ j.dec0 = d0 + p.drawTicks ∧ j.due = d0 + p.drawTicks + p.decTicks ∧
        (t.core n).recFree = d0 + p.drawTicks ∧ (t.core n).pblk = some p.addr ∧ KeepsRegisters c (t.core n) ∧
        (t.core n).union = c.union
    (c.recFree ≤ c.tick → c.finLeft = 0 → c.task.recRoles gb.toNat p.gensUsed 1 = none → c.handleOf reg = some h → h.hkind = 0 →
      h.plane = false → GoodBlock s n h (srPos reg) →
      (legal (some false) tok.toNat 0 → predicts (.rpred n istr pblk tok gb 0 Env.clean) false) ∧
      (legal (some true) tok.toNat 0 → predicts (.rsel n istr pblk tok gb 0 Env.clean) true)) ∧
    (c.recVisible ≤ c.tick → c.finLeft = 0 →
      (legal none 0 ntok → (p.audlog ≠ 0 → c.task.recRole gb.toNat 2 = none) →
        ∃ t j, exec (.rfin n pblk ntm1 gb 0 Env.clean) s = .next t ∧ OnlyStation s t n ∧ (t.core n).fins = c.fins ++ [j] ∧
          (t.core n).pblk = none ∧
          j.due = c.tick + max 16 (ceilDiv ntok 4) ∧ j.par = p ∧ j.ntok = ntok ∧ j.ga = gb.toNat ∧ KeepsRegisters c (t.core n) ∧
          (t.core n).union = c.union ∧ (t.stn n).scratch = (s.stn n).scratch) ∧
      (legal none tok.toNat 0 → c.handleOf reg = some h → h.hkind = 0 → h.plane = false →
        GoodBlock s n h (srPos reg) →
        ∃ t, exec (.rchk n istr pblk tok bi 0 Env.clean) s = .next t ∧ OnlyStation s t n ∧ KeepsRegisters c (t.core n) ∧
          (let v := (s.stn n).auditBlock p tok.toNat bi.toNat (blockQ s n h (srPos reg)).1 (blockQ s n h (srPos reg)).2 h.scale
           ctrGet (t.core n).ctr SC.recAudChk.num = ctrGet c.ctr SC.recAudChk.num + BitVec.ofNat 64 v.1 ∧
           ctrGet (t.core n).ctr SC.recMisses.num = ctrGet c.ctr SC.recMisses.num + BitVec.ofNat 64 v.2.1) ∧
          (t.core n).stream istr.toNat = srAdvance (c.stream istr.toNat) 1 ∧ (t.core n).slots = c.slots))

/-! ### Events of a Station's units -/

/-- The events of the array take place when they are due: a load takes its next tick, a BRUN issues the vectors of its pass that are due,
takes its overrun freeze or closes its window, the oldest product reaches its slot, and a replay ends (R82, R89, R93, R123, R124, R129,
R146, R150). Choices of the model in it: log entries 1, 31, 34, 96, 106, 108, 117 and 130. -/
def Obligations.ArrayEventsTakePlace : Prop :=
  ∀ (s : State) (n : Stn),
    (s.stn n).between = true →
    let x := s.stn n
    let c := s.core n
    (∀ ld, x.dueLoad = some ld → x.held = none → c.task.ended = false → Sound s n → c.loadScratch ld = true →
      (s.loadTick n ld Env.clean).2 = .ok () →
      ∃ t, exec (.loaderTick n Env.clean) s = .next t ∧ OnlyStation s t n ∧ KeepsRegisters c (t.core n) ∧
        (t.core n).slots = c.slots ∧ (t.stn n).scratch = x.scratch ∧
        (∃ l, (t.core n).load = some l ∧ l.done = ld.done + 1 ∧ l.next = ld.next + 1 ∧ l.id = ld.id ∧ l.fault = none) ∧
        ctrGet (t.core n).ctr SC.arrLoadTicks.num = ctrGet c.ctr SC.arrLoadTicks.num + 1) ∧
    (∀ b k, x.duePass = some b → (c.bank b.bank).passes[b.pass]? = some k → Sound s n →
      ((c.handleOf b.reg).map (·.scratch)) = some true →
      let m := x.dueVectors b
      (s.passVectors n b (c.bank b.bank) k m Env.clean).2.2 = none →
      ∃ t ps, exec (.brunPass n Env.clean) s = .next t ∧ OnlyStation s t n ∧ KeepsRegisters c (t.core n) ∧
        (t.core n).tree = c.tree ++ ps ∧ ps.map (fun p => (p.slot, p.u, p.tile)) =
          (List.range m).map (fun i => (b.s0 + (b.vec + i), b.u + 4 + b.pass * b.tp + (b.vec + i), b.tile)) ∧
        (t.core n).bruns = c.bruns.map (fun y => if y.tile = b.tile then b.issued m else y) ∧
        (t.core n).active = (if b.vec = 0 then !c.active else c.active) ∧ (b.pass ≠ 0 → (t.core n).slots = c.slots) ∧
        (∀ j, (j < b.s0 + b.vec ∨ b.s0 + b.vec + m ≤ j) → (t.core n).slot j = c.slot j) ∧
        ctrGet (t.core n).ctr SC.bspVector.num = ctrGet c.ctr SC.bspVector.num + BitVec.ofNat 64 m ∧
        ctrGet (t.core n).ctr SC.bspPasses.num = ctrGet c.ctr SC.bspPasses.num + (if b.vec + m = b.b then 1 else 0)) ∧
    (∀ b, x.dueOverrun = some b →
      ∃ t, exec (.brunOverrunFreeze n) s = .next t ∧ OnlyStation s t n ∧ (t.core n).tick = c.tick ∧
        (t.core n).atick = c.atick + (c.passCount b - b.pe) * b.tp ∧ (t.core n).slots = c.slots ∧ (t.core n).tree = c.tree ∧
        (t.core n).scalars = c.scalars ∧ (t.core n).vregs = c.vregs ∧ (t.core n).pend = c.pend ∧
        ctrGet (t.core n).ctr SC.bspOverrun.num =
          ctrGet c.ctr SC.bspOverrun.num + BitVec.ofNat 64 ((c.passCount b - b.pe) * b.tp)) ∧
    (∀ b, x.replay = none → x.queued = [] → x.dueClose = some b →
      ∃ t, exec (.brunWindowClose n) s = .next t ∧ OnlyStation s t n ∧ KeepsRegisters c (t.core n) ∧
        (t.core n).bruns = c.bruns.filter (fun y => y.tile != b.tile) ∧
        (∀ i, i < b.b → (c.slot (b.s0 + i)).tile = b.tile → ((t.core n).slot (b.s0 + i)).isOpen = false) ∧
        (∀ k, (k < b.s0 ∨ b.s0 + b.b ≤ k) → (t.core n).slot k = c.slot k) ∧
        ctrGet (t.core n).ctr SC.bspTiles.num = ctrGet c.ctr SC.bspTiles.num + 1) ∧
    (∀ p r, x.dueSum = true → c.tree = p :: r → x.replay = none → x.queued = [] →
      (c.slot p.slot).isOpen = true → (c.slot p.slot).tile = p.tile →
      ∃ t, exec (.columnSumAdd n Env.clean) s = .next t ∧ OnlyStation s t n ∧ KeepsRegisters c (t.core n) ∧ (t.core n).tree = r ∧
        (t.core n).slot p.slot = ((c.slot p.slot).addProduct p.terms).1 ∧
        (∀ k, k ≠ p.slot → (t.core n).slot k = c.slot k) ∧
        (t.stn n).replay.isSome = ((c.slot p.slot).addProduct p.terms).2.2) ∧
    (∀ rp, x.replay = some rp → c.tree.all (fun p => decide (rp.detect < p.u)) = true →
      c.bruns.all (fun b => decide (c.passCount b ≤ b.pass ∨ rp.detect < b.vecTick)) = true → (s.doReplay n rp Env.clean).2 = .done →
      ∃ t, exec (.replayComplete n Env.clean) s = .next t ∧ (t.stn n).replay = x.queued.head? ∧ (t.stn n).queued = x.queued.tail ∧
        (t.core n).slots = ((s.doReplay n rp Env.clean).1.core n).slots ∧ (t.core n).scalars = ((s.doReplay n rp Env.clean).1.core n).scalars ∧
        t.mem = (s.doReplay n rp Env.clean).1.mem)

/-- The units write what is due: the drain unit and the pack stages their blocks, Recon its record and its lists (R156, R167, R191, R192,
R246). Each write changes the bytes of its block, record or list alone. Choices of the model in it: log entries 1, 31, 34 and 124. -/
def Obligations.UnitWritesTakePlace : Prop :=
  ∀ (s : State) (n : Stn) (e : Fin 4),
    (s.stn n).between = true → (s.stn n).held = none → (s.core n).task.ended = false →
    let x := s.stn n
    let c := s.core n
    (∀ j h pos, x.dueDrain = some j → c.drainTarget j = some (h, pos) → j.kind = .drain → h.scratch = true →
      let w := c.finishDither j.gb j.ng 512 j.words
      let b := drainBlock h.plane j.uns j.w j.datum j.vals w.2
      h.blockAt pos + b.1.length ≤ scratchSize →
      ∃ t, exec (.drainBlockWrite n Env.clean) s = .next t ∧ OnlyStation s t n ∧ (t.stn n).scratch = (x.sput (h.blockAt pos) b.1).scratch ∧
        (t.core n).drains = c.drains.drop 1 ∧ (t.core n).slots = c.slots ∧ (t.core n).scalars = c.scalars ∧
        (t.core n).vregs = c.vregs ∧ (t.core n).fmtStatus = c.fmtStatus ||| b.2.flags ∧
        ctrGet (t.core n).ctr SC.accBlocks.num = ctrGet c.ctr SC.accBlocks.num + 1) ∧
    (∀ j, x.duePack e = some j →
      let w := c.finishDither j.gb j.ng 512 j.words
      let b := packBlock j.plane j.uns j.w j.sout j.xs w.2
      ∃ t, exec (.vpackBlockWrite n e) s = .next t ∧ OnlyStation s t n ∧ (t.stn n).scratch = (x.sput j.addr b.1).scratch ∧
        (t.core n).packs = c.packs.erase j ∧ (t.core n).slots = c.slots ∧ (t.core n).scalars = c.scalars ∧
        (t.core n).vregs = c.vregs ∧ (t.core n).fmtStatus = c.fmtStatus ||| b.2.flags) ∧
    (∀ j, x.dueRec = some j →
      ∃ t, exec (.reconRecordWrite n Env.clean) s = .next t ∧ OnlyStation s t n ∧
        (t.stn n).scratch = (x.sput (j.par.reca + 576 * j.tok) (recordBytes j.skips j.recordM)).scratch ∧
        (t.core n).recs = c.recs.drop 1 ∧ (t.core n).union = unionWith c.union j.skips ∧ KeepsRegisters c (t.core n) ∧
        (t.core n).slots = c.slots ∧ ctrGet (t.core n).ctr SC.recTokens.num = ctrGet c.ctr SC.recTokens.num + 1) ∧
    (∀ j, x.dueFin = some j → Sound s n →
      let js := unionList c.union j.par.n
      let ts := auditTokens j.par j.ntok j.words
      ∃ t, exec (.rfinListsWrite n Env.clean) s = .next t ∧ OnlyStation s t n ∧
        (t.stn n).scratch = ((x.sput j.par.lista (gatherListBytes j.par js)).sput j.par.alista (auditListBytes ts)).scratch ∧
        (t.core n).union = 0 ∧ (t.core n).fins = c.fins.drop 1 ∧ KeepsRegisters c (t.core n) ∧
        (t.core n).slots = c.slots)

/-- A DMA transfer completes: MCOPY and MIN bring their bytes to the scratchpad, MOUT posts them to the Range, and the tag is free (R248). A
Station's time: holds and freezes end and offer their bundle again, the issue duty counts its cycles, a re-run puts back what its STEP
saved, the scrubber goes on by one line, and a scrub leaves the Station cleared (R152, R247, R249, R251, R254, R256, R258, R259). Choices of
the model in it: log entries 1, 30, 35, 112, 131 and 137. -/
def Obligations.StationTimePasses : Prop :=
  (∀ (s : State) (n : Stn) (tag : BitVec 4) (d : Dma),
     (s.stn n).snap = none → ((s.stn n).mode = .running ∨ (s.stn n).mode = .rerun) → Sound s n →
     let x := s.stn n
     let c := s.core n
     let p := c.task.desc.parcel
     let freed := c.dmas.map fun e => if e = d then { e with done := true } else e
     let left := x.sbytes (d.spa + d.moved) (d.len - d.moved)
     let i : Instr := .dmaTransferComplete n tag Env.clean
     c.dmas.find? (fun d => d.tag == tag.toNat && !d.done) = some d →
     (d.mop = 3 → ∃ t, exec i s = .next t ∧ OnlyStation s t n ∧ (t.stn n).scratch = (x.sput (d.spb + d.moved) left).scratch ∧
       t.core n = { c with dmas := freed }) ∧
     (∀ bs, d.mop = 1 → (s.stnRead n p d.range d.len Env.clean).2 = .ok bs →
       ∃ t, exec i s = .next t ∧ (t.stn n).scratch = (x.sput d.spa bs).scratch ∧ (t.core n).dmas = freed ∧
         (t.core n).scalars = c.scalars ∧ (t.core n).slots = c.slots ∧ t.mem.cells = s.mem.cells ∧ t.reqs = s.reqs) ∧
     (d.mop = 2 → s.writeCheck n p d.range d.len = none → s.movingAt d.range d.len = false → (s.post n d.range left .good).2 = none →
       ∃ t, exec i s = .next t ∧ (t.stn n).scratch = x.scratch ∧ (t.core n).dmas = freed ∧ (t.core n).scalars = c.scalars ∧
         (t.stn n).wc = ((s.post n d.range left .good).1.stn n).wc ∧
         t.mem = (s.post n d.range left .good).1.mem)) ∧
  (∀ (s : State) (n : Stn) (f : Facet) (k cycles dmaTicks : Nat) (bank : Fin 32) (h : Held),
     let x := s.stn n
     let c := s.core n
     (x.mode = .running → x.held = some h → h.why.isFreeze = false → h.need = k → x.overdue = false → 0 < k →
       (h.why.loaderGoes = true → c.load.bind (·.fault) = none) →
       let w := (s.idleTo n (c.tick + k - 1) Env.clean).1
       (s.idleTo n (c.tick + k - 1) Env.clean).2 = none →
       (c.recs = [] → c.task.desc.relaxed = false → Sound s n → OnlyStation s w n ∧ (w.core n).atick = c.atick ∧
         (w.core n).tick = c.tick ∧ (w.core n).pc = c.pc ∧ (w.core n).scalars = c.scalars ∧ (w.stn n).scratch = x.scratch) ∧
       ∃ u, exec (.holdEnd n k Env.clean) s = .next (h.ops.foldl (fun s p => runSlot p.2 s) u) ∧ OnlyStation w u n ∧ (u.stn n).held = none ∧
         (u.core n).atick = (w.core n).atick + k ∧ (u.core n).tick = (w.core n).tick ∧ (u.core n).pc = (w.core n).pc ∧
         ctrGet (u.core n).ctr SC.slip.num = ctrGet (w.core n).ctr SC.slip.num + BitVec.ofNat 64 k) ∧
     (x.mode = .running → x.held = some h → c.arrivedAll h.why = true →
       ∃ u, exec (.rangeDataArrival n cycles) s = .next (h.ops.foldl (fun s p => runSlot (arrived p.2) s) u) ∧ OnlyStation s u n ∧
         (u.stn n).held = none ∧ (u.core n).atick = c.atick ∧ (u.core n).tick = c.tick ∧ (u.core n).scalars = c.scalars ∧
         ctrGet (u.core n).ctr SC.frzTier.num = ctrGet c.ctr SC.frzTier.num + BitVec.ofNat 64 cycles) ∧
     (∃ t, exec (.issueDutyWindow f) s = .next t ∧ t = { s with stns := t.stns, clk := { s.clk with duty := fput s.clk.duty f 0 } } ∧ ∀ m : Stn,
       (m.val / 16 = f.val ∧ ((s.stn m).mode = .running ∨ (s.stn m).mode = .rerun) →
         ctrGet (t.core m).ctr SC.frzDuty.num = ctrGet (s.core m).ctr SC.frzDuty.num + BitVec.ofNat 64 (8 - s.dutyOf f) ∧
         (t.core m).pc = (s.core m).pc ∧ (t.core m).tick = (s.core m).tick) ∧
       (¬ (m.val / 16 = f.val ∧ ((s.stn m).mode = .running ∨ (s.stn m).mode = .rerun)) → t.stn m = s.stn m)) ∧
     (x.mode = .rerun → (∀ d ∈ c.dmas, d.done = true) →
       ∃ t, exec (.rerunResume n dmaTicks) s = .next t ∧ OnlyStation s t n ∧ (t.stn n).mode = .running ∧ (t.core n).pc = c.saved.pc ∧
         (t.core n).tick = c.saved.tick ∧ (t.core n).loops = c.saved.loops ∧ (t.core n).scalars = c.saved.scalars ∧
         (t.core n).streams = c.saved.streams ∧ (t.core n).plane0 = .empty ∧ (t.core n).plane1 = .empty ∧ (t.core n).union = 0 ∧
         (t.core n).gens = c.gens ∧ (t.stn n).scratch = x.scratch) ∧
     (x.mode ≠ .scrub → x.secded = true → c.chkCtl.getLsbD 1 = true → x.snap = none → x.flips = [] →
       ∃ t, exec (.scratchScrubLine n bank [(0, 1)]) s = .next t ∧ OnlyStation s t n ∧
         tget 0 (t.stn n).scrubPos bank = (tget 0 x.scrubPos bank + 1) % 6144 ∧ (t.stn n).scratch = x.scratch ∧
         ctrGet (t.core n).ctr SC.chkCorrected.num = ctrGet c.ctr SC.chkCorrected.num + 1 ∧ (t.core n).scalars = c.scalars) ∧
     (x.mode = .scrub →
       ∃ t, exec (.scrubComplete n) s = .next t ∧ (∀ m, m ≠ n.val → t.stn m = s.stn m) ∧ (t.stn n).mode = .idle ∧
         (t.stn n).scratch = [] ∧ (t.core n).slots = [] ∧ (t.core n).scalars = [] ∧ (t.core n).vregs = [] ∧ (t.core n).gens = [] ∧
         t.mem = s.mem ∧ t.reqs = s.reqs ∧ t.trk = s.trk))

/-- The memory-side adders: the first update of a controller whose page stands still is added to its block, no other byte changes, and its
acknowledgement reaches the task that sent it (R169, R171, R172). Choices of the model in it: log entry 1. -/
def Obligations.AtomicAddsTakePlace : Prop :=
  ∀ (s : State) (ctl : Fin 20) (n : Stn) (x : Atomic) (id sat : Nat),
    (s.mem.atomics.find? (fun x => x.ctl == ctl.val && !s.movingAt x.addr 1544) = some x → Unperturbed s →
      (pagesOf x.addr 1544).findSome? s.stackRefuses = none →
      s.dep.adders.contains (let e := s.page (rpageOf x.addr); stackNum e.loc e.lstack) = false → s.poisonAt x.addr 1544 = none →
      let r := adderBlock (s.rbytes x.addr 1544) x.bytes
      ∃ t, exec (.memoryAtomicAdd ctl Env.clean) s = .next t ∧ t.mem.cells = (s.rput x.addr r.1).mem.cells ∧
        (∀ k, (∀ i, i < r.1.length → k ≠ s.phys (x.addr + i)) → t.mem.get k = s.mem.get k) ∧
        t.mem.atomics = s.mem.atomics.filter (fun y => y.id != x.id) ∧ t.mem.acks = s.mem.acks ++ [(x.id, x.stn, b2n r.2)] ∧
        t = { s with mem := t.mem }) ∧
    (s.mem.acks.find? (fun a => a.1 == id && a.2.1 == n.val) = some (id, n.val, sat) → (s.core n).task.acksOut.contains id = true →
      ∃ t, exec (.atomicAddAck n id) s = .next t ∧ t.mem.acks = s.mem.acks.erase (id, n.val, sat) ∧
        (t.core n).task.acksOut = (s.core n).task.acksOut.erase id ∧
        (t.core n).task.quals = (s.core n).task.quals ++ (if sat = 1 then [0x0003#16] else []) ∧
        (∀ m, m ≠ n.val → t.stn m = s.stn m) ∧ t.mem.cells = s.mem.cells ∧ (t.core n).scalars = (s.core n).scalars)

/-! ### Task graphs -/

/-- DESCRIPTOR_SUBMIT: a descriptor that passes every check of R272, its tables readable, holds its entry, WAITING, or READY when it waits
for nothing (R274), and one that fails a check leaves the status of that check where R290 lists it (R273, R291). Choices of the model in it:
log entries 37 and 145. -/
def Obligations.DescriptorsAreAcceptedOrRejected : Prop :=
  ∀ (s : State) (f : Facet) (bs : List Byte) (by_ : Submitter) (t : Nat),
    let u := s.tickTo t
    let d := descOf bs
    let tb := u.tablesOf d
    let early := u.descCheck f d by_ [] []
    let readable : Prop := u.trackerRead f d.htab (16 * d.nh) = none ∧ u.trackerRead f d.gtab (8 * d.ngen) = none
    (∀ st ue, (early.orElse fun _ => u.descCheck f d by_ tb.1 tb.2) = some st → (early = none → readable ∧ ue = false) →
      ∃ v, exec (.descriptorSubmit f bs by_ ue t) s = .next v ∧
        tget 0 v.trk.last f = (if trkStatus st then st else tget 0 u.trk.last f) ∧
        ctrGet v.trk.ctr (f * 16 + TC.rejected.num) = ctrGet u.trk.ctr (f * 16 + TC.rejected.num) + 1 ∧
        ctrGet v.trk.ctr (f * 16 + TC.accepted.num) = ctrGet u.trk.ctr (f * 16 + TC.accepted.num) ∧ v.mem.cells = u.mem.cells ∧
        v.mem.pages = u.mem.pages ∧ v.trk.records = u.trk.records) ∧
    (early = none → readable → u.descCheck f d by_ tb.1 tb.2 = none →
      (∀ p ∈ u.trk.pending, ¬ (p.1 = f.val ∧ bits p.2.1.toNat 31 20 = d.taskid ∧ bits p.2.1.toNat 63 40 = d.serial ∧
        bits p.2.1.toNat 39 36 = d.parcel)) →
      let free : Bool := d.depd == 0 && d.dept == 0
      ∃ v, exec (.descriptorSubmit f bs by_ false t) s = .next v ∧
        v.entry f d.taskid = { TrkEntry.free with st := if free then .ready else .waiting, desc := d, handles := tb.1, gens := tb.2,
                                                  depd := d.depd, dept := d.dept, order := if free then u.trk.order else 0 } ∧
        (∀ k, k ≠ f.val * 4096 + d.taskid → tget .free v.trk.table k = tget .free u.trk.table k) ∧
        v.trk.order = u.trk.order + 1 ∧
        ctrGet v.trk.ctr (f * 16 + TC.accepted.num) = ctrGet u.trk.ctr (f * 16 + TC.accepted.num) + 1 ∧
        (∀ k, (free = true ∧ d.kind ≠ 5 ∧ k / 16 = f.val ∧ d.stmask.testBit (k % 16) = true ∧ u.isWithdrawn k = false ∧
          u.pwr.supply ≠ .abort ∧ u.spow k = .parked) → tget .off v.pwr.waking k = .parked) ∧
        v = { u with trk := v.trk, pwr := v.pwr, mem := { u.mem with stks := v.mem.stks } })

/-- TASK_DISPATCH: a free Station takes the next task in the order of R276, a known-answer test like another, whose first bundle finds the
registers as R217 states, its generators seeded (R60) and its entry RUNNING (R274); a Station that runs a task loads the image of the next
(R278); an expert task without tokens completes at once and takes no Station (R211). Choices of the model in it: log entries 2, 25, 96, 97,
116, 135, 136, 139 and 145. -/
def Obligations.TasksAreDispatched : Prop :=
  ∀ (s : State) (n : Stn) (t tid : Nat) (e : TrkEntry),
    let u := s.tickTo t
    let x := u.stn n
    let f := n.val / 16
    x.katDue = false →
    (∀ im, u.freeStn n = true → u.nextTask n = some (tid, e) → u.imageFor n e = .ok im → (e.desc.kind = 1 → u.movesOk e = true) →
      e.desc.retain = false → e.handles.filter (fun h => h.codec e.desc.kind) = [] →
      ∃ v, exec (.taskDispatch n false t Env.clean) s = .next v ∧
        v.entry f tid = { u.entry f tid with st := .running, stn := some n.val, since := u.aon } ∧
        (v.stn n).mode = .running ∧ (v.core n).task.desc = e.desc ∧ (v.core n).task.handles = e.handles ∧
        (v.core n).task.gens = e.gens ∧ (v.core n).task.image = im ∧ (v.core n).task.ended = false ∧
        (v.core n).task.kat = (e.desc.kind == 5) ∧ (v.core n).pc = 0 ∧
        (v.core n).tick = 0 ∧ (v.core n).scalars = [] ∧ (v.core n).streams = [] ∧ (v.core n).vregs = [] ∧ (v.core n).slots = [] ∧
        (v.core n).gens = seedGens (u.core n).gens e.gens e.desc.serial (u.nonceOf e.desc) ∧
        (v.stn n).scratch = x.scratch ∧ v.spow n = .running ∧ v.mem = u.mem ∧
        ctrGet v.trk.ctr (f * 16 + TC.dispatched.num) = ctrGet u.trk.ctr (f * 16 + TC.dispatched.num) + 1 ∧
        ctrGet v.trk.ctr (f * 16 + TC.katRuns.num) =
          ctrGet u.trk.ctr (f * 16 + TC.katRuns.num) + (if e.desc.kind = 5 then 1 else 0) ∧
        ∀ m, m ≠ n.val → v.stn m = u.stn m) ∧
    (x.mode = .running → u.nextTask n = some (tid, e) → e.kat = false → u.trackerRead f e.desc.prog 128 = none →
      (x.preload.any fun p => p.1 == e.desc) = false →
      ∃ v, exec (.taskDispatch n false t Env.clean) s = .next v ∧ OnlyStation u v n ∧
        v.stn n = { x with preload := some (e.desc, u.rbytes e.desc.prog 128) }) ∧
    (bestOf x.trackPtr (u.tasksFor n fun e => e.st == .ready && e.desc.kind == 0 && e.desc.stmask.testBit (n % 16)) = some (tid, e) →
      ∃ v, exec (.taskDispatch n true t Env.clean) s = .next v ∧
        v.trk.records = u.trk.records ++ [recordOf { Task.empty with desc := e.desc } 0 true 0 0 0 0 0 0] ∧
        v.entry f tid = .free ∧ v.stns = u.stns ∧ v.mem = u.mem ∧ v.sent = u.sent)

/-- TASK_COMPLETE: a task that is done leaves its record, its tokens and its entry; its slots are closed and its Station is free for another
task, with its scratchpad as the last results left it (R238, R274, R279, R288). The half-blocks whose last token it wrote are sealed (R349).
A page-move task gives its moves to the tracker and stays in its entry (R316); a test that passes leaves its time, and the Station of one
that fails is withdrawn (R287, R504). Known-answer tests: a Station's falls due at its time of R286 and its task stands READY in the
tracker; with GATE_KAT_DUE each Gate has one test job at the head of its queue and each adder that passes has its time noted, and an adder
that fails withdraws the Stations of its Facet (R286, R287, R503, R504). Choices of the model in it: log entries 1, 36, 90, 97, 98, 102,
111, 132 and 133. -/
def Obligations.TasksComplete : Prop :=
  (∀ (s : State) (n : Stn) (t : Nat) (pass : Bool) (seals : List Seal),
     let u := s.tickTo t
     let w := (u.idleTo n (u.core n).lateDue Env.clean).1
     let c := (w.core n).closeAll []
     let k := c.task
     let d := k.desc
     let rec0 := recordOf k n false k.status k.endTick 0 0 0 (w.aon - k.dispatch)
     let moves := if d.kind = 1 then movesOf d.facet d.taskid d.parcel k.handles else []
     let i : Instr := .taskComplete n t pass seals Env.clean
     let only (v : State) : Prop := ∀ j, j ≠ d.facet * 4096 + d.taskid → tget .free v.trk.table j = tget .free w.trk.table j
     let idle (v : State) : Prop := (v.stn n).mode = .idle ∧ (v.core n).slots = c.slots ∧ (∀ j, ((v.core n).slot j).isOpen = false) ∧
       (v.stn n).scratch = (w.stn n).scratch ∧ ∀ m, m ≠ n.val → v.stn m = w.stn m
     u.taskDone n = true → (u.idleTo n (u.core n).lateDue Env.clean).2 = none → (u.core n).task.encodes = [] → k.encodes = [] →
     (k.kat = false → moves = [] →
       ∃ v, exec i s = .next v ∧ v.trk.records = w.trk.records ++ [rec0] ∧ v.entry d.facet d.taskid = .free ∧ only v ∧ idle v ∧
         v.mem = (seals.foldl State.sealHalf w).mem) ∧
     (k.kat = false → moves ≠ [] →
       ∃ v, exec i s = .next v ∧ v.trk.records = w.trk.records ∧
         v.entry d.facet d.taskid = { w.entry d.facet d.taskid with stn := none, moves := moves.length, moved := k.status, rec0 := rec0 } ∧
         only v ∧ idle v ∧ v.mem.moves = w.mem.moves ++ moves ∧ v.mem.cells = (seals.foldl State.sealHalf w).mem.cells) ∧
     (k.kat = true → pass = true → (∀ p, w.holder n = some p → (w.parcel p).st ≠ .resetting) →
       ∃ v, exec i s = .next v ∧ v.trk.records = w.trk.records ++ [rec0] ∧ (w.ownEntry n = true → v.entry d.facet d.taskid = .free) ∧
         (v.stn n).mode = .idle ∧ (v.core n).slots = [] ∧ (v.stn n).lastKat = k.dispatch ∧ (v.stn n).scratch = (w.stn n).scratch ∧
         v.mem = w.mem ∧ ∀ m, m ≠ n.val → v.stn m = w.stn m) ∧
     (k.kat = true → pass = false → w.isWithdrawn n = false →
       ∃ v, exec i s = .next v ∧ v.isWithdrawn n = true ∧ (v.stn n).mode = .scrub ∧ v.mem.cells = w.mem.cells ∧
         v.mem.pages = w.mem.pages)) ∧
  (∀ (s : State) (n : Stn) (fails : List (Fin 20)) (t : Nat),
     let u := s.tickTo t
     let f := n.val / 16
     let tb := u.katTables n
     (∀ tid rest, u.aon % 104000 = 1625 * n.val → u.isWithdrawn n = false → u.hasTest n = false → u.freeTids f = tid :: rest →
       u.trackerRead f 0xF0000000000 (16 * tb.1.length) = none → u.trackerRead f 0xF0000000000 (8 * tb.2.length) = none →
       (∀ p ∈ u.trk.pending, ¬ (p.1 = f ∧ bits p.2.1.toNat 31 20 = tid ∧ bits p.2.1.toNat 63 40 = 0 ∧ bits p.2.1.toNat 39 36 = 0)) →
       ∃ v, exec (.katDue n t) s = .next v ∧ (v.stn n).katDue = false ∧ v.hasTest n = true ∧ (v.entry f tid).st = .ready ∧
         (v.entry f tid).kat = true ∧ (v.entry f tid).desc.kind = 5 ∧ (v.entry f tid).desc.stmask = 2 ^ (n.val % 16) ∧
         (v.entry f tid).desc.taskid = tid ∧ (v.entry f tid).handles = tb.1 ∧ (v.entry f tid).gens = tb.2 ∧
         (∀ k, k ≠ f * 4096 + tid → tget .free v.trk.table k = tget .free u.trk.table k) ∧ v.mem = u.mem ∧ v.pwr = u.pwr ∧
         ctrGet v.trk.ctr (f * 16 + TC.accepted.num) = ctrGet u.trk.ctr (f * 16 + TC.accepted.num) + 1) ∧
     (∃ v, exec (.gateKatDue fails t) s = .next v ∧ (∀ f, f < 4 → (v.gate f).queue.head? = some katJob) ∧
       (∀ k, k < 20 → (∀ c ∈ fails, c.val ≠ k) → tget 0 v.dep.adderKat k = u.aon) ∧
       (∀ c ∈ fails, v.dep.adders.contains c.val = true ∧ (u.dep.adders.contains c.val = false →
         ∀ i, i < 16 → v.isWithdrawn (16 * (if c.val < 4 then c.val else (c.val - 4) / 4) + i) = true)) ∧
       (∀ k, u.isWithdrawn k = true → v.isWithdrawn k = true) ∧ v.mem.cells = u.mem.cells ∧ v.mem.pages = u.mem.pages ∧
       (fails = [] → (∀ f, f < 4 → v.gate f = { u.gate f with queue := katJob :: (u.gate f).queue.filter fun j => !j.kat }) ∧
         v = { u with gates := v.gates, dep := { u.dep with adderKat := v.dep.adderKat } })))

/-- Tokens and limits of a tracker: a token takes its count down by one and its task is READY when both are 0, a cancel of the same control
cycle makes another token void, an old token of another module is discarded, a task that waits past its DEADLINE ends with a record, and one
that runs too long is killed (R204, R274, R280, R281, R283 to R285). Choices of the model in it: log entries 2 and 38. -/
def Obligations.TrackerEventsTakePlace : Prop :=
  ∀ (s : State) (f : Facet) (tok other : BitVec 64) (tid : BitVec 12) (n : Stn) (t : Nat),
    let u := s.tickTo t
    (let w := tok.toNat
     let k := bits w 31 20
     let e := u.entry f k
     let left := if bits w 34 34 = 1 then (e.depd, e.dept - 1) else (e.depd - 1, e.dept)
     bits w 33 32 = f.val → bits w 19 8 = 0 →
     (bits w 35 35 = 0 → e.st = .waiting → e.desc.serial = bits w 63 40 →
      e.desc.parcel = bits w 39 36 → (if bits w 34 34 = 1 then e.dept else e.depd) ≠ 0 →
      ∃ v, exec (.completionToken f [tok] t) s = .next v ∧
        v.entry f k = { e with depd := left.1, dept := left.2, st := if left = (0, 0) then .ready else .waiting,
                               order := if left = (0, 0) then u.trk.order else e.order } ∧
        (∀ j, j ≠ f.val * 4096 + k → tget .free v.trk.table j = tget .free u.trk.table j) ∧
        v = { u with trk := v.trk, pwr := v.pwr, mem := { u.mem with stks := v.mem.stks } }) ∧
     (tokenCancels tok other = true → exec (.completionToken f [other, tok] t) s = exec (.completionToken f [tok] t) s)) ∧
    (let old (p : Nat × BitVec 64 × Nat) : Bool := p.1 == f.val && decide (p.2.2 + 13000 ≤ u.aon)
     ∃ v, exec (.pendingTokenExpire f t) s = .next v ∧ v.trk.pending = u.trk.pending.filter (fun p => !old p) ∧
       ctrGet v.trk.ctr (f * 16 + TC.stale.num) =
         ctrGet u.trk.ctr (f * 16 + TC.stale.num) + BitVec.ofNat 64 (u.trk.pending.countP old) ∧
       v.trk.table = u.trk.table ∧ v = { u with trk := v.trk }) ∧
    (let e := u.entry f tid.toNat
     let d := e.desc
     let st : Status := if d.kind = 2 then 0x0753#16 else if e.st = .waiting ∧ 0 < e.dept then 0x0770#16 else 0x0771#16
     d.deadline ≠ 0 → 0 ≤ serialDist 48 u.aon d.deadline → (e.st = .waiting ∨ e.st = .ready) →
     ∃ v, exec (.deadlineReached f tid t) s = .next v ∧
       v.trk.records = u.trk.records ++ [recordOf { Task.empty with desc := d } 0 true st 0 0 0 0 0] ∧
       v.entry f tid.toNat = .free ∧ tget 0 v.trk.last f = (if d.kind = 2 then tget 0 u.trk.last f else st) ∧
       v.mem.cells = u.mem.cells ∧ v.mem.pages = u.mem.pages) ∧
    (let x := u.stn n
     let c := x.core
     let frozen := (x.held.map fun h => h.why.isFreeze).getD false
     let st : Status := if frozen then 0x0770#16 else 0x0772#16
     (x.mode = .running ∨ x.mode = .rerun) → c.task.dispatch + 13000 ≤ u.aon → c.task.kat = false →
     ∃ v, exec (.runLimit n t) s = .next v ∧
       v.trk.records = u.trk.records ++ [recordOf c.task n false st c.tick 0 0 0 (u.aon - c.task.dispatch)] ∧
       (v.stn n).mode = .scrub ∧ (v.stn n).scratch = x.scratch ∧ (v.core n).slots = c.slots ∧ tget 0 v.trk.last c.task.desc.facet = st ∧
       v.mem.cells = u.mem.cells ∧ v.mem.pages = u.mem.pages)

/-! ### Memory tiers -/

/-- WRITE_COMBINE_FLUSH: a write-combining buffer leaves its Station, and the bytes it holds reach memory: no other byte changes. A partly
valid sector is read first: what that read meets is handled as for any read of the page, and the write completes. For a window page the
buffer leaves as one WRITE, and one with a partly valid sector ends its task with 0x01A3. A buffer of a page that moves waits (R311, R317,
R384). Choices of the model in it: log entry 93. -/
def Obligations.WriteCombiningBuffersFlush : Prop :=
  ∀ (s : State) (n : Stn) (region : Nat) (b : WcBuf) (env : Env),
    let a := region * 1024
    let u := s.modStn n fun x => { x with wc := x.wc.filter fun y => y.region != region }
    let lo := (tkeys b.bytes).headD 0
    let whole : Prop := lo % 64 = 0 ∧ b.bytes.length % 64 = 0 ∧ ∀ i, i < b.bytes.length → (tkeys b.bytes).contains (lo + i) = true
    let p := (s.core n).task.desc.parcel
    let found := (s.stn n).wc.find? fun b => b.region == region
    (found = none ∨ s.movingAt a 1 = true → exec (.writeCombineFlush n region env) s = .next s) ∧
    (found = some b → s.movingAt a 1 = false →
      (isWindow a = false → (partSector b.bytes = none ∨ env.rmw = .good) → Unperturbed s →
        ∃ t, exec (.writeCombineFlush n region env) s = .next t ∧ (t.stn n).wc = (s.stn n).wc.filter (fun y => y.region != region) ∧
          t.core n = s.core n ∧ (t.stn n).scratch = (s.stn n).scratch ∧ (∀ m, m ≠ n.val → t.stn m = s.stn m) ∧
          t.mem.cells = (b.bytes.foldl (fun m c => m.put (s.phys (a + c.1)) c.2) s.mem).cells ∧
          (∀ k, (∀ p ∈ b.bytes, k ≠ s.phys (a + p.1)) → t.mem.get k = s.mem.get k) ∧
          (∀ k v, (b.bytes.map (·.1)).Nodup → (∀ p ∈ b.bytes, p.1 < 1024) → (k, v) ∈ b.bytes → isSystem a = false →
            t.mem.get (s.phys (a + k)) = v) ∧
          t = { s with stns := t.stns, mem := t.mem }) ∧
      (isWindow a = false → ∀ k, partSector b.bytes = some k →
        (env.rmw = .corrected → exec (.writeCombineFlush n region env) s =
          .next ((u.corrected (let e := s.page (region / 2048); stackNum e.loc e.lstack)).writeRegion region b.bytes)) ∧
        (env.rmw = .bad → exec (.writeCombineFlush n region env) s =
          .next ((u.uncorrectable (a + 64 * k)).1.writeRegion region b.bytes))) ∧
      (isWindow a = true → whole → ∀ w, (s.parcel p).windowAt (rpageOf a) = some w →
        exec (.writeCombineFlush n region env) s = .next (u.sendFrame 0x01 1 w.module w.parcel p
          (w.rbase + (a + lo - w.base * 2 ^ 21)) (b.bytes.map (·.2)) (some n) none)) ∧
      (isWindow a = true → ¬ whole → (s.stn n).mode = .running →
        exec (.writeCombineFlush n region env) s = .next (u.stopTask n { st := 0x01A3#16, addr := a + lo, unit := 5 })))

/-- Page moves: a D page whose move may begin is MOVING with a free frame reserved and none of its bytes changed, and at the flip the page
lies in that frame with the bytes it had, its old frame is to be zeroed, and the move is over. A copy that meets an uncorrectable error, a
poisoned sector or a stack that refuses it ends, and the page stays (R315, R317, R319, R323, R326). Choices of the model in it: log entries
20, 41 and 42. -/
def Obligations.PagesMove : Prop :=
  ∀ (s : State) (m : Move) (k : Fin 36) (ue : Option (BitVec 15)) (t : Nat),
    let u := s.tickTo t
    let e := u.page m.rpage
    let sk := stackNum e.loc e.lstack
    let a := m.rpage * 2 ^ 21
    (∀ f r, u.firstMove [] u.mem.moves = some m → u.moveAlive m = true → e.valid = true → e.cls = .d → m.ttier < 2 →
      (e.loc == m.ttier && e.lstack == m.tstack) = false →
      u.usage e.owner m.ttier m.tstack m.rpage + 1 ≤ (u.parcel e.owner).quota m.ttier m.tstack → e.st ≠ .poisoned →
      u.moveCheck m = none → u.pickFrame m.dest = (r, some f) →
      ∃ v, exec (.pageMoveStart t) s = .next v ∧ v.page m.rpage = { e with st := .moving } ∧
        v.mem.moves = u.mem.moves.map (fun x => if x = m then { m with started := true, dframe := f } else x) ∧
        u.frameFree m.dest f = true ∧ v.mem.cells = u.mem.cells ∧ (∀ g, g ≠ m.rpage → v.page g = u.page g) ∧
        v.reqs = u.reqs ∧ v.trk = u.trk) ∧
    (u.mem.moves.find? (fun m => m.started && decide (m.ttier < 2) && m.dest == k.val) = some m →
      (ue = none → u.framePoison (frameKey sk e.lframe) 0 (2 ^ 21) = none → u.moveCheck m = none → (e.loc = 2 ∨ sk < 20) →
        4 ≤ m.facet → NothingWaits u →
        ∃ v, exec (.pageMoveFlip k ue t) s = .next v ∧
          v.page m.rpage = { e with st := u.settled m.rpage, loc := m.ttier, lstack := m.tstack, lframe := m.dframe } ∧
          (∀ g, g ≠ m.rpage → v.page g = u.page g) ∧ v.mem.cells = (u.mem.copyFrame sk e.lframe k m.dframe).cells ∧
          v.mem.moves = u.mem.moves.erase m ∧ (e.loc ≠ 2 → v.mem.zeroing.contains (frameKey sk e.lframe) = true) ∧
          ctrGet v.mem.ctr (k * 16 + MC.movesIn.num) = ctrGet u.mem.ctr (k * 16 + MC.movesIn.num) + 1 ∧
          (v.stack k).lastAcc = u.aon ∧ v.reqs = u.reqs ∧ v.trk = u.trk) ∧
      (∀ x, ue = some x → exec (.pageMoveFlip k ue t) s = .next (u.uncorrectable (a + x.toNat * 64)).1.retry) ∧
      (∀ x, ue = none → u.framePoison (frameKey sk e.lframe) 0 (2 ^ 21) = some x →
        exec (.pageMoveFlip k ue t) s = .next (u.moveFail m 0x0380#16 (a + x * 64)).retry) ∧
      (∀ st j, ue = none → u.framePoison (frameKey sk e.lframe) 0 (2 ^ 21) = none → u.moveCheck m = some (st, j) →
        exec (.pageMoveFlip k ue t) s = .next ((if st = 0x0410#16 then u.memCount j .refused else u).moveFail m st).retry))

/-- The work of Tier W and of released frames: a chunk that is programmed holds its bytes and counts, an erased or zeroed frame reads as
zero and is free, and no other byte changes. A chunk whose source cannot be read abandons its program (R301, R317, R323, R327). Choices of
the model in it: log entries 9, 42 and 46. -/
def Obligations.FramesAreProgrammedAndCleared : Prop :=
  ∀ (s : State) (w : Fin 16) (k : Fin 20) (frame t : Nat) (j : WJob) (ue : Option (BitVec 15)),
    let u := s.tickTo t
    let x := frameKey j.stack j.frame
    let bad := u.jobError j (ue.map (·.toNat))
    (u.wjob (20 + w) = some j → j.busy = true → j.erase = false → j.why ≠ .abandoned → 0 < j.chunks → j.stack = 20 + w.val → bad = none →
      ∃ v, exec (.tierWWriteComplete w ue t) s = .next v ∧
        v.mem.cells = (u.mem.copyPart j.data x ((8 - j.chunks) * 2 ^ 18) (2 ^ 18)).cells ∧
        (∃ j', j' ∈ v.mem.wjobs ∧ j'.stack = j.stack ∧ j'.frame = j.frame ∧ j'.chunks = j.chunks - 1 ∧ j'.tag = j.tag) ∧
        ctrGet v.mem.ctr (j.stack * 16 + MC.progChunks.num) = ctrGet u.mem.ctr (j.stack * 16 + MC.progChunks.num) + 1 ∧
        v.mem.pages = u.mem.pages ∧ v.mem.tags = u.mem.tags ∧ v = { u with mem := v.mem }) ∧
    (u.wjob (20 + w) = some j → j.busy = true → ∀ y, bad = some y →
      exec (.tierWWriteComplete w ue t) s = .next ((u.sourceError j y).writeDone { j with why := .abandoned })) ∧
    (u.wjob (20 + w) = some j → j.busy = true → j.erase = true → j.stack = 20 + w.val →
      ∃ v, exec (.tierWWriteComplete w ue t) s = .next v ∧ (∀ off, off < 2 ^ 21 → v.mem.get (physKey j.stack j.frame off) = 0) ∧
        (∀ a, a / 2 ^ 21 ≠ x → v.mem.get a = u.mem.get a) ∧ v.mem.zeroing = u.mem.zeroing.erase x ∧
        tget .erased v.mem.tags x = { Tag.erased with pcount := (tget .erased u.mem.tags x).pcount } ∧
        v.mem.pages = u.mem.pages ∧ v = { u with mem := v.mem }) ∧
    (s.mem.zeroing.contains (frameKey k frame) = true → NothingWaits s → frame < 2 ^ 17 →
      ∃ v, exec (.frameZeroingComplete ⟨k.val, by omega⟩ frame) s = .next v ∧
        (∀ off, off < 2 ^ 21 → v.mem.get (physKey k frame off) = 0) ∧
        (∀ a, a / 2 ^ 21 ≠ frameKey k frame → v.mem.get a = s.mem.get a) ∧ v.mem.zeroing = s.mem.zeroing.erase (frameKey k frame) ∧
        (∀ p ∈ v.mem.poison, p / 2 ^ 15 ≠ frameKey k frame) ∧ v.mem.pages = s.mem.pages ∧ v = { s with mem := v.mem })

/-- A verifying read that finds no error lifts the poison: the verified frame is the home and the page is resident, or unmap pending where
an unmap waited for it; one that fails leaves the page lost (R320, R321). At the end of an unmap that no older task holds up the page is
mapped no more (R297). The upkeep of the stacks: a correction of the scrub is flagged and counted, a reading sets what R324 states and takes
a step of the duty of R325, a refresh-management command follows its request, and self-refresh begins only while the Facet is quiet (R300,
R323, R488). Choices of the model in it: log entries 43, 44 and 91. -/
def Obligations.StacksAreKept : Prop :=
  (∀ (s : State) (rpage : BitVec 23) (k f : Nat),
     let g := rpage.toNat
     let e := s.page g
     (s.mem.verify.find? (fun v => v.1 == g) = some (g, 20 + k, f) → e.hstack = k → e.hframe = f →
       ∃ v, exec (.verifyReadComplete rpage true) s = .next v ∧
         v.page g = { e with st := s.settled g, loc := 2, lstack := k, lframe := f } ∧ (∀ h, h ≠ g → v.page h = s.page h) ∧
         v.mem.verify = s.mem.verify.erase (g, 20 + k, f) ∧ v.mem.cells = s.mem.cells ∧ v.mem.tags = s.mem.tags ∧ v.reqs = s.reqs) ∧
     (s.mem.verify.find? (fun v => v.1 == g) = some (g, 20 + k, f) →
       ∃ v, exec (.verifyReadComplete rpage false) s = .next v ∧ v.mem.lost.contains g = true ∧ v.mem.pages = s.mem.pages ∧
         v.mem.verify = s.mem.verify.erase (g, 20 + k, f) ∧ v.mem.cells = s.mem.cells ∧ v.reqs = s.reqs) ∧
     (NothingWaits s → s.mem.unmaps.any (fun u => u.1 == g && u.2.2.2) = true →
       (∀ u ∈ s.mem.unmaps, u.1 = g → s.oldTask u.2.1 u.2.2.1 = false) → s.mem.moves.any (fun m => m.rpage == g && m.started) = false →
       e.cls = .d → e.mirrored = false → stackNum e.loc e.lstack < 20 →  e.lframe < 2 ^ 17 →
       ∃ v, exec (.unmapComplete rpage) s = .next v ∧ v.page g = .none ∧ (∀ h, h ≠ g → v.page h = s.page h) ∧
         v.mem.zeroing.contains (frameKey (stackNum e.loc e.lstack) e.lframe) = true ∧
         v.mem.unmaps = s.mem.unmaps.filter (fun u => u.1 != g) ∧ v.mem.cells = s.mem.cells ∧ v.reqs = s.reqs ∧ v.trk = s.trk)) ∧
  (∀ (s : State) (k : Fin 20) (h : Fin 16) (frame sector corrected t : Nat) (temp : BitVec 10),
     let u := s.tickTo t
     let k' : Fin 36 := ⟨k.val, by omega⟩
     let f := if k.val < 4 then k.val else (k.val - 4) / 4
     let x := u.stack k
     (0 < corrected → ∃ v, exec (.patrolScrub k' frame sector corrected false t) s = .next v ∧
       v.stack k = { x with status := x.status ||| 1 } ∧
       ctrGet v.mem.ctr (k * 16 + MC.ce.num) = ctrGet u.mem.ctr (k * 16 + MC.ce.num) + 1 ∧
       (∀ j, j ≠ k.val → v.stack j = u.stack j) ∧ v.mem.cells = u.mem.cells ∧ v.mem.pages = u.mem.pages ∧ v = { u with mem := v.mem }) ∧
     ((∀ m ∈ u.mem.moves, m.started = true → m.dest ≠ k.val ∧ stackNum (u.page m.rpage).loc (u.page m.rpage).lstack ≠ k.val) →
       ∃ v, exec (.stackTempReading k' temp t) s = .next v ∧ (v.stack k).temp = temp.toNat ∧
       ((v.stack k).refuse = true ↔ 420 ≤ temp.toNat ∨ (x.refuse = true ∧ 400 ≤ temp.toNat)) ∧
       ((v.stack k).halved = true ↔ 380 ≤ temp.toNat ∨ (x.halved = true ∧ 368 ≤ temp.toNat)) ∧
       (340 ≤ temp.toNat → 1 < u.dutyOf f → (∀ r ∈ u.mem.round, r.1 = f → r.2.1 + 13000 ≤ u.aon) → v.dutyOf f = u.dutyOf f - 1) ∧
       (∀ g, g ≠ f → v.dutyOf g = u.dutyOf g) ∧ (∀ j, j ≠ k.val → v.stack j = u.stack j) ∧ v.mem.cells = u.mem.cells ∧
       v.mem.pages = u.mem.pages ∧ v.stns = u.stns) ∧
     (∃ v, exec (.stackRfmRequest h) s = .next v ∧ v.out = .rfm (4 + h) :: s.out ∧ (v.stack (4 + h)).rfm = (s.stack (4 + h)).rfm + 1 ∧
       (∀ j, j ≠ 4 + h.val → v.stack j = s.stack j) ∧ v.mem.cells = s.mem.cells) ∧
     ((∀ i, i < 16 → u.spow (16 * f + i) = .parked ∨ u.spow (16 * f + i) = .off) → x.lastAcc + 1300 ≤ u.aon →
       exec (.selfRefreshEntry k t) s = .next (u.modStack k fun x => { x with selfRef := true })) ∧
     (∀ i, i < 16 → u.spow (16 * f + i) = .running → exec (.selfRefreshEntry k t) s = .next u) ∧
     (∃ v, exec (.selfRefreshExit k t) s = .next v ∧ v.stack k = { x with selfRef := false } ∧ v.mem.cells = u.mem.cells ∧
       (∀ j, j ≠ k.val → v.stack j = u.stack j)))

/-! ### Weight-store links and seams -/

/-- The commands of the Girdle on a weight-store link, in order: a read is answered by its data and DONE, a program, erase or tag write is
begun, done and answered, with the SEQ and CRC of the stack's own flits; none that writes is taken while the sag rule holds it (R301, R303,
R304, R306, R327). One with an illegal field changes nothing and is answered by a status of class 0x01 (R6). A command that names a frame
the stack does not have, or a read that goes beyond its frame, stops the machine: the stack holds 98,304 frames of 2 MiB (R301, R304).
Choices of the model in it: log entries 27, 46 and 138. -/
def Obligations.WeightStoreCommands : Prop :=
  (∀ (s : State) (w : Fin 16) (fl : WFlit),
     let frame := flitFrame fl
     let off := flitW16 fl 4
     let len := flitW16 fl 6
     let tag := fl.tag.toNat
     let k := 20 + w.val
     let x := s.wslOf w
     let ctl : Out := .wslCtl w true false fl.seq.toNat
     let done (i : Nat) : Out := .wsl w 7 (stackFlit x i 7 tag 0 [])
     let rejects (type : Nat) (o : Host.Outcome State Fault Refusal) : Prop :=
       s.wslLive w = true → flitOk type fl = true → flitLegal fl type = false → x.down.expect = fl.seq.toNat →
         ∃ t lo, o = .next t ∧ lo < 256 ∧ FlitTaken s t w false fl 1 ∧ t.mem.cells = s.mem.cells ∧ t.mem.tags = s.mem.tags ∧
           t.out = .wsl w 7 (stackFlit x 0 7 tag 0 (natLe 2 (0x0100 + lo))) :: ctl :: s.out ∧ (t.wslOf w).cmds = x.cmds
     (s.wslLive w = true → flitOk 0 fl = true → exec (.wslIdle w fl) s = .next s) ∧
     (InOrder s w false 1 fl → frame < 98304 → off + len ≤ 8192 → ∃ t, exec (.wslRead w fl) s = .next t ∧
       FlitTaken s t w false fl (len + 1) ∧
       t.out = done len :: (((List.range len).map fun i => Out.wsl w 2 (stackFlit x i 2 tag (i % 256) ((List.range 256).map fun b =>
         s.mem.get (physKey k frame ((off + i) * 256 + b))))).reverse ++ ctl :: s.out) ∧
       (t.wslOf w).cmds = x.cmds.filter (fun y => y.tag != tag) ++ [{ tag := tag, kind := 1, frame := frame, arg := off, count := 0 }] ∧
       t.mem.cells = s.mem.cells) ∧
     (InOrder s w false 3 fl → frame < 98304 → s.mayWrite k = true → ∃ t, exec (.wslProg w fl) s = .next t ∧ FlitTaken s t w false fl 0 ∧
       t.out = ctl :: s.out ∧ (t.wslOf w).cmds = x.cmds.filter (fun y => y.tag != tag) ++
         [{ tag := tag, kind := 3, frame := frame, arg := le fl.payload 4 1, count := 0 }] ∧ t.mem.cells = s.mem.cells) ∧
     (InOrder s w false 4 fl →
       (∀ c, x.cmd tag = some c → c.kind = 3 → c.count < 1024 → ∃ t, exec (.wslProgdata w fl) s = .next t ∧
         FlitTaken s t w false fl (if c.count = 1023 then 1 else 0) ∧
         t.mem.cells = (s.mem.puts (physKey k c.frame (c.arg * 2 ^ 18 + c.count * 256)) (fit 0 256 fl.payload)).cells ∧
         (t.wslOf w).cmds = x.cmds.map (fun y => if y = c then { c with count := c.count + 1 } else y) ∧
         t.out = (if c.count = 1023 then [Out.wsl w 7 (stackFlit x 0 7 c.tag 0 [])] else []) ++ ctl :: s.out ∧
         t.mem.pages = s.mem.pages) ∧
       ((∀ c, x.cmd tag = some c → c.kind ≠ 3 ∨ 1024 ≤ c.count) → ∃ t, exec (.wslProgdata w fl) s = .next t ∧
         FlitTaken s t w false fl 0 ∧ t.out = ctl :: s.out ∧ t.mem.cells = s.mem.cells ∧ (t.wslOf w).cmds = x.cmds)) ∧
     (InOrder s w false 5 fl → frame < 98304 → s.mayWrite k = true → ∃ t, exec (.wslErase w fl) s = .next t ∧
       FlitTaken s t w false fl 1 ∧ (∀ o, o < 2 ^ 21 → t.mem.get (physKey k frame o) = 0) ∧
       (∀ a, a / 2 ^ 21 ≠ frameKey k frame → t.mem.get a = s.mem.get a) ∧ t.out = done 0 :: ctl :: s.out ∧ t.mem.pages = s.mem.pages) ∧
     (InOrder s w false 6 fl → frame < 98304 → s.mayWrite k = true → ∃ t, exec (.wslTagwr w fl) s = .next t ∧
       FlitTaken s t w false fl 1 ∧ tget .erased t.mem.tags (frameKey k frame) = (tagOf ((fl.payload.drop 4).take 64)).getD
         { Tag.erased with pcount := (tget .erased s.mem.tags (frameKey k frame)).pcount } ∧
       t.out = done 0 :: ctl :: s.out ∧ t.mem.cells = s.mem.cells ∧ t.mem.pages = s.mem.pages) ∧
     (s.mayWrite k = false → frame < 98304 →
       exec (.wslProg w fl) s = .next s ∧ exec (.wslErase w fl) s = .next s ∧ exec (.wslTagwr w fl) s = .next s) ∧
     (InOrder s w false 8 fl → ∃ t v, exec (.wslStatusrd w fl) s = .next t ∧ FlitTaken s t w false fl 1 ∧
       t.out = .wsl w 9 (stackFlit x 0 9 tag 0 (natLe 2 (s.stack k).temp ++ natLe 2 v)) :: ctl :: s.out ∧ t.mem.cells = s.mem.cells) ∧
     rejects 1 (exec (.wslRead w fl) s) ∧ rejects 8 (exec (.wslStatusrd w fl) s) ∧
     (s.mayWrite k = true →
       rejects 3 (exec (.wslProg w fl) s) ∧ rejects 5 (exec (.wslErase w fl) s) ∧ rejects 6 (exec (.wslTagwr w fl) s))) ∧
  (∀ (s : State) (w : Fin 16) (fl : WFlit),
     (InOrder s w false 1 fl → 98304 ≤ flitFrame fl ∨ 8192 < flitW16 fl 4 + flitW16 fl 6 →
       exec (.wslRead w fl) s = .fault .noSuchFrame) ∧
     (98304 ≤ flitFrame fl →
       (InOrder s w false 3 fl → exec (.wslProg w fl) s = .fault .noSuchFrame) ∧
       (InOrder s w false 5 fl → exec (.wslErase w fl) s = .fault .noSuchFrame) ∧
       (InOrder s w false 6 fl → exec (.wslTagwr w fl) s = .fault .noSuchFrame)))

/-- The flits of a stack and of its link's order: data are counted, DONE ends its command and its status is kept, a reading is acted on, an
ACK and a NAK reach the other direction, a flit that fails its code is NAKed, a repeat is acknowledged again, and a link whose retraining
fails leaves its stack out of service (R304, R305). Seams: a good flit in order is taken, passed on and acknowledged, its ACKSEQ and NAK
reach the other direction, a bad one is NAKed, and a seam whose retraining fails, or that is silent, is out of service, its unacknowledged
flits going by the path that remains (R19, R20). Choices of the model in it: log entries 45, 126 and 138. -/
def Obligations.LinksOfTheStoreAnswer : Prop :=
  (∀ (s : State) (w : Fin 16) (fl : WFlit) (up : Bool) (t : Nat),
     let u := s.tickTo t
     let x := s.wslOf w
     let k := 20 + w.val
     let q := flitW16 fl 0
     let tag := fl.tag.toNat
     let quiet : Prop := ∀ m ∈ u.mem.moves, m.started = true → m.dest ≠ k ∧ stackNum (u.page m.rpage).loc (u.page m.rpage).lstack ≠ k
     (InOrder s w true 2 fl → ∃ v, exec (.wslData w fl) s = .next v ∧ FlitTaken s v w true fl 0 ∧
       (v.wslOf w).cmds = x.cmds.map (fun c => if c.tag = tag then { c with count := c.count + 1 } else c) ∧ v.mem.cells = s.mem.cells) ∧
     (InOrder s w true 7 fl → ∃ v, exec (.wslDone w fl) s = .next v ∧ FlitTaken s v w true fl 0 ∧
       (v.wslOf w).cmds = x.cmds.filter (fun c => c.tag != tag) ∧ (v.wslOf w).done = some (tag, BitVec.ofNat 16 q) ∧
       v.mem.cells = s.mem.cells) ∧
     (InOrder u w true 9 fl → quiet → ∃ v, exec (.wslStatusrsp w fl t) s = .next v ∧ (v.wslOf w).temp = q ∧
       (v.wslOf w).activity = flitW16 fl 2 ∧ (v.stack k).temp = q % 1024 ∧
       ((v.stack k).suspend = true ↔ 340 ≤ q % 1024 ∨ ((u.stack k).suspend = true ∧ 320 ≤ q % 1024)) ∧
       ((v.stack k).refuse = true ↔ 420 ≤ q % 1024 ∨ ((u.stack k).refuse = true ∧ 400 ≤ q % 1024)) ∧
       v.mem.cells = u.mem.cells ∧ v.mem.pages = u.mem.pages ∧ v.duty = u.duty) ∧
     (s.wslLive w = true → flitOk 10 fl = true → flitLegal fl 10 = true → ∃ v, exec (.wslAck w up fl) s = .next v ∧
       (v.wslOf w).dir (!up) = (x.dir (!up)).acked 12 q ∧ (v.wslOf w).dir up = x.dir up ∧ v.out = s.out ∧ v.mem.cells = s.mem.cells) ∧
     (s.wslLive w = true → flitOk 11 fl = true → flitLegal fl 11 = true → ∃ v, exec (.wslNak w up fl) s = .next v ∧
       ((v.wslOf w).dir (!up)).replayOf = q ∧ ((v.wslOf w).dir (!up)).unacked = (x.dir (!up)).unacked ∧
       (((v.wslOf w).dir (!up)).retrain = true ↔ (x.dir (!up)).replayOf = q ∧ 8 ≤ (x.dir (!up)).replays) ∧
       ctrGet v.mem.ctr (k * 16 + MC.wslReplays.num) =
         ctrGet s.mem.ctr (k * 16 + MC.wslReplays.num) + BitVec.ofNat 64 ((x.dir (!up)).replayed 12 q) ∧
       (v.wslOf w).dir up = x.dir up ∧ v.mem.cells = s.mem.cells) ∧
     (s.wslLive w = true → flitOk 2 fl = false →
       exec (.wslData w fl) s = .next { s with out := .wslCtl w false true x.up.expect :: s.out }) ∧
     (s.wslLive w = true → flitOk 2 fl = true → serialDist 12 fl.seq.toNat x.up.expect < 0 →
       exec (.wslData w fl) s = .next { s with out := .wslCtl w false false ((x.up.expect + 4095) % 4096) :: s.out }) ∧
     (s.wslLive w = false → exec (.wslData w fl) s = .next s) ∧
     ((x.down.retrain = true ∨ x.up.retrain = true) →
       (∃ v, exec (.wslRetrainEnd w true t) s = .next v ∧ (v.wslOf w).down = x.down.trained ∧ (v.wslOf w).up = x.up.trained ∧
         (v.stack k).status = (u.stack k).status ∧ v.mem.cells = u.mem.cells) ∧
       (quiet → ∃ v, exec (.wslRetrainEnd w false t) s = .next v ∧ (v.stack k).status.getLsbD 4 = false ∧ v.mem.cells = u.mem.cells))) ∧
  (∀ (s : State) (k : Fin 13) (d nak ok : Bool) (seq ack : BitVec 10) (rsv : BitVec 11) (crc : BitVec 32) (pay : List Byte) (t : Nat),
     let u := s.tickTo t
     let x := s.seam k
     let good := seamOk seq.toNat ack.toNat nak rsv.toNat crc pay
     let back := (x.dir (!d)).acked 10 ack.toNat
     let down (y : Seam) : Seam :=
       { y with service := false, kept := [], fwd := { y.fwd with unacked := [] }, bwd := { y.bwd with unacked := [] } }
     let again (v : State) : Prop := ∀ path, v.detour k = some path → ∀ p ∈ x.kept, Out.seamAgain path p.1 p.2.1 p.2.2 ∈ v.out
     (x.service = true → x.retrains = false → good = true → rsv = 0 → (x.dir d).expect = seq.toNat → (x.dir d).unacked.length < 256 →
       ∃ v, exec (.seamFlit k d seq ack nak rsv crc pay) s = .next v ∧ (v.seam k).dir d = (x.dir d).took 10 ∧
         (v.seam k).dir (!d) = (if nak then back.nakked ((ack.toNat + 1) % 1024) else back) ∧
         (v.seam k).kept = x.kept.filter (fun p => p.1 != !d || back.unacked.contains p.2.1) ++ [(d, seq.toNat, pay)] ∧
         v.out = .seamCtl k (!d) false seq.toNat :: .seamOut k d pay :: s.out ∧ (∀ j, j ≠ k.val → v.seam j = s.seam j) ∧
         v = { s with seams := v.seams, out := v.out }) ∧
     (x.service = true → x.retrains = false → good = false →
       exec (.seamFlit k d seq ack nak rsv crc pay) s = .next { s with out := .seamCtl k (!d) true (x.dir d).expect :: s.out }) ∧
     (x.service = false ∨ x.retrains = true ∨ (good = true ∧ rsv ≠ 0) → exec (.seamFlit k d seq ack nak rsv crc pay) s = .next s) ∧
     (x.retrains = true → ∃ v, exec (.seamRetrainEnd k ok t) s = .next v ∧ (∀ j, j ≠ k.val → v.seam j = u.seam j) ∧ v.mem = u.mem ∧
       v.stns = u.stns ∧ (let y := { x with fwd := x.fwd.trained, bwd := x.bwd.trained }
         v.seam k = (if ok ∨ x.service = false then y else down y) ∧ (ok = true → v = { u with seams := v.seams }) ∧
         (ok = false → x.service = true → again v))) ∧
     (x.service = true → ∃ v, exec (.seamSilenceTimeout k t) s = .next v ∧ v.seam k = down x ∧ again v ∧
       (∀ j, j ≠ k.val → v.seam j = u.seam j) ∧ v.mem = u.mem ∧ v.stns = u.stns))

/-! ### Serving -/

/-- SUBMIT: a request that passes the checks of R338 takes the free entry of lowest number, is answered by ACCEPT and waits for its prompt,
or in its Parcel's queue when the frame holds all of it (R337, R338, R340, R341). Choices of the model in it: log entries 47, 48, 54 and
141. -/
def Obligations.RequestsAreAccepted : Prop :=
  ∀ (s : State) (fr : SFrame) (p r t : Nat),
    let u := s.tickTo t
    let b := reqBlock fr.payload
    Taken u 1 fr p → u.submitCheck p fr = none →
    u.reqs.find? (fun x => x.2.st != .free && x.2.home == p && x.2.addr == fr.srcAddr && x.2.udp == fr.srcPort
      && x.2.tag == fr.clientTag && x.2.remote.isNone) = none →
    (List.range 65536).find? (fun r => (u.req r).st == .free) = some r →
    u.reqs.countP (fun x => x.2.parcel == p && (x.2.st == .receiving || x.2.st == .queued)) < 4096 →
    ∃ v, exec (.submit fr t) s = .next v ∧ (v.req r).parcel = p ∧ (v.req r).home = p ∧ (v.req r).tag = fr.clientTag ∧ (v.req r).addr = fr.srcAddr ∧
      (v.req r).udp = fr.srcPort ∧ (v.req r).blk = b ∧ (v.req r).accept = u.aon ∧ (v.req r).gen = [] ∧
      (v.req r).toks = takeToks { Request.free with blk := b } 0 (tokenWords (fr.payload.drop 64)) ∧
      (v.req r).gstate = (if b.gramid = 0xFFFF then 0xFFFF else le (tget [] (u.parcel p).grammars b.gramid) 8 2) ∧
      (if (v.req r).toks.length < b.nctx then (v.req r).st = .receiving ∧ (v.parcel p).queue = (u.parcel p).queue
       else (v.req r).st = .queued ∧ (v.parcel p).queue = (u.parcel p).queue ++ [r]) ∧
      v.out = .serving fr.port fr.srcAddr fr.srcPort 0x81 0 fr.clientTag r true 0 u.own 0 [] :: u.out ∧
      (∀ x, x ≠ r → v.req x = u.req x) ∧ v = { u with reqs := v.reqs, parcels := v.parcels, out := v.out }

/-- The other client frames: PROMPT adds its positions once, CANCEL ends the request with 0x0007, RESEND sends generated tokens again,
ENDACK frees an entry in ENDING, and a frame that fails check 2 of R338 is rejected with 0x0190 (R336, R338, R340 to R343). Choices of the
model in it: log entries 47, 52 and 54. -/
def Obligations.ClientFramesAct : Prop :=
  ∀ (s : State) (fr : SFrame) (p r t : Nat),
    let u := s.tickTo t
    let q := u.req r
    let ts := (q.gen.drop fr.offset.toNat).take (le fr.payload 0 4)
    u.frameEntry p fr = some r →
    (Taken u 2 fr p → q.st = .receiving →
      let ts := takeToks q fr.offset.toNat (tokenWords fr.payload)
      ∃ v, exec (.prompt fr t) s = .next v ∧ (v.req r).toks = ts ∧
        (if ts.length < q.blk.nctx then (v.req r).st = .receiving ∧ (v.parcel q.parcel).queue = (u.parcel q.parcel).queue
         else (v.req r).st = .queued ∧ (v.parcel q.parcel).queue = (u.parcel q.parcel).queue ++ [r]) ∧
        (v.req r).gen = q.gen ∧ (∀ x, x ≠ r → v.req x = u.req x) ∧ v = { u with reqs := v.reqs, parcels := v.parcels }) ∧
    (Taken u 3 fr p → q.live = true → q.dest = none → (u.servPort q.port).isSome = true →
      ∃ v, exec (.cancel fr t) s = .next v ∧ Ended u v r 0x0007#16) ∧
    (Taken u 4 fr p → q.st ≠ .ending → q.dest = none → (u.servPort q.port).isSome = true → ts ≠ [] →
      ts.length ≤ max 1 (u.frameRoom q.port) →
      ∃ v, exec (.resend fr t) s = .next v ∧ v.out = toClientOut u r 0x82 0 fr.offset.toNat (tokenBytes ts) :: u.out ∧
        v.req r = { q with frames := q.frames + 1 } ∧ (∀ x, x ≠ r → v.req x = u.req x) ∧ v = { u with reqs := v.reqs, out := v.out }) ∧
    (Taken u 5 fr p → q.st = .ending →
      ∃ v, exec (.endack fr t) s = .next v ∧ v.req r = .free ∧ (∀ x, x ≠ r → v.req x = u.req x) ∧
        v = { u with reqs := v.reqs, trk := { u.trk with batch := v.trk.batch } }) ∧
    (u.portLive (some fr.port) = true → sframeWire fr ≤ 9216 → u.frameParcel fr = some p → fr.full = false → frameIllegal 2 fr = true →
      exec (.prompt fr t) s = .next { u with
        out := .serving fr.port fr.srcAddr fr.srcPort 0x84 0 fr.clientTag 0 false 0x0190#16 u.own 0 [] :: u.out })

/-- Echo and neighbour requests for the address of a port that carries packets are answered (R333, R420). The timers of a request: 0x0790
when its prompt stays away, 0x0791 when its time is over, its END frame again, dropped where its parity fails, and its entry free in the end
(R340 to R343, R509). Choices of the model in it: log entries 2, 54 and 151. -/
def Obligations.RequestTimersAct : Prop :=
  (∀ (s : State) (port : Option (Fin 2)) (src dst : BitVec 128) (data : List Byte),
     s.portLive port = true → s.portAddr port = some dst →
     exec (.icmpv6Echo port src dst data) s = .next { s with out := .echo port src data :: s.out } ∧
     exec (.neighbourDiscovery port src dst) s = .next { s with out := .advert port src dst :: s.out }) ∧
  (∀ (s : State) (req : BitVec 16) (t : Nat),
     let u := s.tickTo t
     let r := req.toNat
     let q := u.req r
     q.remote = none → q.dest = none → (u.servPort q.port).isSome = true →
     (q.st = .receiving → q.lastPos + 1300000 ≤ u.aon → ∃ v, exec (.promptTimeout req t) s = .next v ∧ Ended u v r 0x0790#16) ∧
     (q.live = true → q.blk.ttl ≠ 0 → q.accept + q.blk.ttl ≤ u.aon → ∃ v, exec (.requestTtl req t) s = .next v ∧ Ended u v r 0x0791#16) ∧
     (q.st = .ending → q.endSends ≤ 8 → q.lastEnd + 13000 ≤ u.aon →
       ∃ v, exec (.endResendTimer req true t) s = .next v ∧ v.out = toClientOut u r 0x83 q.endSt q.endOff q.endPay :: u.out ∧
         v.req r = { q with frames := q.frames + 1, endSends := q.endSends + 1, lastEnd := u.aon } ∧
         (∀ x, x ≠ r → v.req x = u.req x) ∧ v = { u with reqs := v.reqs, out := v.out }) ∧
     (q.st = .ending → q.endSends ≤ 8 → q.lastEnd + 13000 ≤ u.aon →
       ∃ v, exec (.endResendTimer req false t) s = .next v ∧ v.req r = { q with endSends := q.endSends + 1, lastEnd := u.aon } ∧
         (∀ x, x ≠ r → v.req x = u.req x) ∧ v = { u with reqs := v.reqs }) ∧
     (q.st = .ending → q.endAt + 13000000 ≤ u.aon →
       ∃ v, exec (.endingTimeout req t) s = .next v ∧ v.req r = .free ∧ (∀ x, x ≠ r → v.req x = u.req x) ∧
         v = { u with reqs := v.reqs, trk := { u.trk with batch := v.trk.batch } }))

/-- Admission and decode steps: the request at the head of its Parcel's queue leaves it in PREFILL with a serial number and NONCE of its
own, and a decode step takes the requests of its set, carrying the SERIAL and step number of the first of them (R61, R265, R271, R340, R345,
R347). A prefilled request is handed to the target with the most room, and its segments are shipped one by one: within the module their
blocks reach the decode Parcel's pages, to another module they leave as frames. The last one that is stored there makes it DECODE; blocks
that cannot be encoded end it (R344, R352, R355). Choices of the model in it: log entries 21, 22, 50, 118, 134 and 144. -/
def Obligations.RequestsGoOn : Prop :=
  (∀ (s : State) (req : BitVec 16) (p : Fin 16) (t : Nat) (rc : Recipe) (g : GraphEnt) (x : State × Nat),
     let u := s.tickTo t
     let r := req.toNat
     let q := u.req r
     let n := q.blk.nctx + q.blk.ngen
     let k := if 0xFFFFFF < (u.parcel p).serial then 1 else (u.parcel p).serial
     let packed : Bool := decide (u.freeH p r < rc.need false n)
     let admitted (v : State) : Prop := v = (x.1.modReq r fun q => { q with nonce := (x.1.parcel p).nonce }) ∧
       ((v.req r).st = .prefill ∨ (v.req r).st = .ending) ∧ (v.req r).serial = k ∧ (v.req r).packed = packed ∧
       (v.parcel p).queue = (u.parcel p).queue.filter (fun y => y != r)
     let s1 := ((u.modReq r fun q => { q with st := .prefill, packed := packed, step := 0 }).modParcel p fun y =>
       { y with queue := y.queue.filter fun z => z != r }).modReq r fun q => { q with serial := k }
     let b := u.setNumber p q.blk.recipe
     let ms := u.nextSet p q.blk.recipe
     let q0 := u.req (ms.headD r)
     let s2 := ms.foldl (fun s y => s.modReq y fun q => { q with step := q.step + 1 })
       { u with trk := { u.trk with batch := fput u.trk.batch b ms } }
     q.parcel = p.val → u.trk.pending = [] → u.recipe p q.blk.recipe = some rc → (u.parcel p).st = .active →
     (rc.graphOf 0 = some g → q.st = .queued → (u.parcel p).queue.head? = some r → rc.need packed n ≤ u.freeH p r →
       ((List.range 64).any fun k => (u.parcel p).stations.getLsbD k && !u.isWithdrawn k) = true →
       s1.instantiate p q.blk.recipe g r 0 none (natLe 4 r ++ natLe 4 q.blk.nctx ++ natLe 4 q.blk.ngen) = some x →
       (∃ v, exec (.requestAdmit p t) s = .next v ∧ admitted v) ∧
       (NothingWaits u → ∃ v, exec (.graphInstantiate req t) s = .next v ∧ admitted v)) ∧
     (rc.graphOf 1 = some g → q.st = .decode → ms.contains r = true →
       ((u.parcel p).insts.any (fun i => i.ownkind == 1 && i.owner == b) || ms.any u.inGate) = false → NothingWaits u →
       s2.instantiate p q.blk.recipe g b (q0.step + 1) (some (q0.serial, q0.nonce)) (natLe 4 b ++ natLe 4 (q0.step + 1)) = some x →
       ∃ v, exec (.graphInstantiate req t) s = .next v ∧ v = x.1 ∧ x.2 = q0.serial ∧ tget [] v.trk.batch b = ms ∧ ms.length ≤ 128 ∧
         ∀ y ∈ ms, (v.req y).step = (u.req y).step + 1)) ∧
  (∀ (s : State) (req : BitVec 16) (room : List Nat) (layer head : BitVec 8) (i m dp x t : Nat) (rc : Recipe),
     let u := s.tickTo t
     let r := req.toNat
     let q := u.req r
     let p := u.parcel q.parcel
     let rooms := ((List.range p.targets.length).zip p.targets).map fun x => u.targetRoom r room x.1 x.2
     u.recipe q.parcel q.blk.recipe = some rc →
     (q.st = .prefill → q.waitRoom = true →
       pickTarget p.targets.length p.targetPtr (rc.need true (q.blk.nctx + q.blk.ngen)) rooms = some i →
       let d := p.targets.getD i (0, 0)
       ∃ v, exec (.decodeHandoff req room t) s = .next v ∧
         v.req r = { q with st := .shipping, waitRoom := false, segs := rc.segments, dest := some (d.1, d.2, 0) } ∧
         (v.parcel q.parcel).targetPtr = (i + 1) % p.targets.length ∧ (∀ y, y ≠ r → v.req y = u.req y) ∧
         v = { u with reqs := v.reqs, parcels := v.parcels }) ∧
     (q.st = .shipping → q.segs.contains (layer.toNat, head.toNat) = true → q.dest = some (m, dp, x) →
       let left := q.segs.erase (layer.toNat, head.toNat)
       let nt := q.blk.nctx + q.gen.length
       (∀ bs, u.kvBlocks r layer.toNat head.toNat rc nt = .ok bs →
         (m = u.own → (∀ f ∈ u.sent, f.req ≠ some r) →
           ∃ v, exec (.kvSegmentShip req layer head t) s = .next v ∧ v.mem = (u.kvStore dp r layer.toNat head.toNat bs).mem ∧
             (if left = [] then (v.req r).st = .decode ∧ (v.req r).parcel = dp ∧ (v.req r).home = q.home ∧ (v.req r).packed = true ∧
                 (v.req r).dest = none ∧ (v.req r).serial = u.serialFor dp none ∧ (v.req r).nonce = (v.parcel dp).nonce
              else v.req r = { q with segs := left, kvGens := kvGensOf rc.d bs q.kvGens }) ∧
             (∀ y, y ≠ r → v.req y = u.req y) ∧ v.stns = u.stns) ∧
         (m ≠ u.own →
           ∃ v, exec (.kvSegmentShip req layer head t) s = .next v ∧ (v.req r).segs = left ∧ (v.req r).st = .shipping ∧
             v.sent.length = u.sent.length + ceilDiv (u.segment r layer.toNat head.toNat (ceilDiv nt 64) bs).length 4096 ∧
             (∀ f ∈ v.sent.drop u.sent.length, f.req = some r ∧ f.dest = m ∧ f.dparcel = dp) ∧ (∀ y, y ≠ r → v.req y = u.req y) ∧
             v.mem = u.mem ∧ v.stns = u.stns)) ∧
       (∀ st, u.kvBlocks r layer.toNat head.toNat rc nt = .error st → q.remote = none → (u.servPort q.port).isSome = true →
         ∃ v, exec (.kvSegmentShip req layer head t) s = .next v ∧ Ended u v r st)))

/-- The Token Gate: it runs the job that the arbiter chooses, unless its logits cannot be read, and the chosen token is sent; at NGEN tokens
the request ends well, a job for which no token is allowed ends its request with 0x0390, and a parity error with 0x03E3. A job of a request
that has ended counts only. A test that passes is noted, and one that fails withdraws the Facet's Stations (R305, R342, R358, R407, R503,
R509). An adaptation step whose deadline passes while a contribution is missing ends with 0x0792 (R363). Choices of the model in it: log
entries 23, 51, 53, 143, 147 and 152. -/
def Obligations.GatesChooseTokens : Prop :=
  (∀ (s : State) (f : Facet) (pass parity : Bool) (j : GateJob) (a : Arb) (env : Env) (t : Nat) (c : Option (Nat × Nat)),
     let u := s.tickTo t
     let g := u.gate f
     let q := u.req j.req
     let v := exec (.gateJobComplete f true pass t) s
     (g.run = none → u.pwr.silent = false → u.nextJob f = some (j, a) →
       (j.kat = true → exec (.gateJob f env t) s =
         .next (u.modGate f fun g => { g with queue := g.queue.erase j, arb := a, run := some (j, none), began := u.aon })) ∧
       (j.kat = false → u.trackerRead f j.logits (2 * j.v) = none → env.ue = false → env.ce = false →
         ∃ v, exec (.gateJob f env t) s = .next v ∧ (v.gate f).run = some (j, u.gateChoice j (u.reqNonce j)) ∧
           (v.gate f).queue = g.queue.erase j ∧ (v.gate f).began = u.aon ∧ (v.gate f).arb = a ∧
           (v.gate f).gen = gateSeed j.serial j.step (u.reqNonce j) ∧ (∀ k, k ≠ f.val → v.gate k = u.gate k) ∧
           v.mem.cells = u.mem.cells ∧ v.mem.pages = u.mem.pages ∧ v = { u with gates := v.gates, mem := v.mem }) ∧
       (∀ st, j.kat = false → u.trackerRead f j.logits (2 * j.v) = some st → q.live = true → q.remote = none → q.dest = none →
         (u.servPort q.port).isSome = true → ∃ v, exec (.gateJob f env t) s = .next v ∧ Ended u v j.req st)) ∧
     (g.run = some (j, c) → j.kat = true →
       (∃ v, exec (.gateJobComplete f parity true t) s = .next v ∧ (v.gate f).run = none ∧ (v.gate f).lastKat = g.began ∧
         v.reqs = u.reqs ∧ v.out = u.out ∧ ctrGet v.srvCtr (f * 16 + GC.jobs.num) = ctrGet u.srvCtr (f * 16 + GC.jobs.num) + 1) ∧
       exec (.gateJobComplete f parity false t) s = .next ((((u.modGate f fun g => { g with run := none }).srvCount f .jobs).srvCount f
         .logits j.v).katFailed ((List.range 16).map (16 * f.val + ·)) (64 + f) 1 g.lastKat)) ∧
     (g.run = some (j, c) → j.kat = false → q.serial ≠ j.serial → ∃ w, v = .next w ∧ (w.gate f).run = none ∧ w.reqs = u.reqs ∧ w.out = u.out ∧
       w.mem = u.mem) ∧
     (g.run = some (j, c) → j.kat = false → q.st = .decode → q.serial = j.serial → q.remote = none → (u.servPort q.port).isSome = true →
       (∀ tok gs, c = some (tok, gs) → q.gen.length + 1 < q.blk.ngen → q.blk.stops.contains tok = false → j.gstate = 0xFFFF →
         ∃ w, v = .next w ∧ (w.gate f).run = none ∧ (w.req j.req).st = .decode ∧ (w.req j.req).gen = q.gen ++ [tok] ∧
           (w.req j.req).gstate = gs ∧ (w.req j.req).sent = q.gen.length + 1 ∧
           w.out = toClientOut u j.req 0x82 0 q.gen.length (tokenBytes [tok]) :: u.out ∧ (∀ y, y ≠ j.req → w.req y = u.req y) ∧
           w.mem = u.mem ∧ w.stns = u.stns) ∧
       (∀ tok gs, c = some (tok, gs) → q.blk.ngen ≤ q.gen.length + 1 →
         ∃ w, v = .next w ∧ (w.req j.req).st = .ending ∧ (w.req j.req).endSt = 0 ∧ (w.req j.req).gen = q.gen ++ [tok] ∧
           toClientOut u j.req 0x82 0 q.gen.length (tokenBytes [tok]) ∈ w.out ∧ w.mem.cells = u.mem.cells) ∧
       (∀ tok gs, c = some (tok, gs) → ∃ w, exec (.gateJobComplete f false pass t) s = .next w ∧ (w.req j.req).st = .ending ∧
         (w.req j.req).endSt = 0x03E3#16 ∧ (w.req j.req).gen = q.gen ++ [tok] ∧ (w.req j.req).sent = q.sent) ∧
       (c = none → ∃ w, v = .next w ∧ (w.req j.req).st = .ending ∧ (w.req j.req).endSt = 0x0390#16 ∧ (w.req j.req).gen = q.gen ∧
         (w.gate f).status.getLsbD 1 = true ∧ bits (w.gate f).status.toNat 31 16 = 0x0390))) ∧
  (∀ (s : State) (p : Fin 16) (step : BitVec 32) (t : Nat),
     let u := s.tickTo t
     let a := (u.adapts.find? fun a => a.parcel == p.val && a.step == step.toNat).getD
       { parcel := p, step := step.toNat, expected := ((u.parcel p).peers.map (·.1)).eraseDups, got := [], ended := none }
     a.ended = none → (∃ m ∈ a.expected, ∀ g ∈ a.got, g.1 ≠ m) →
     exec (.adaptStepDeadline p step t) s = .next { u with
       adapts := (u.adapts.filter fun b => b.parcel != p.val || b.step != step.toNat) ++ [{ a with ended := some 0x0792#16 }] })

/-! ### The Traverse -/

/-- Frames that act on memory, tokens and steps: WRITE stores its bytes, ADD adds its block, and both are acknowledged, with 0x0003 for a
sum that saturated and the status of a stack that takes none or of a poisoned block; TOKEN takes a count down; GRAD and a part of a KV
segment are kept (R169, R173, R280, R305, R326, R355, R363, R374, R376). Choices of the model in it: log entries 22, 56 and 60. -/
def Obligations.FramesReachMemory : Prop :=
  ∀ (s : State) (fr : TFrame) (env : Env) (t : Nat),
    let u := s.tickTo t
    let a := fr.addr.toNat
    let b := fr.payload
    let p := fr.dparcel.toNat
    let refused (len : Nat) : Option Status := (pagesOf a len).findSome? u.stackRefuses
    let keeps (v : State) : Prop := v.mem.pages = u.mem.pages ∧ v.stns = u.stns ∧ v.trk = u.trk ∧ v.reqs = u.reqs
    (Lands u 0x01 fr →
      (refused b.length = none → ∃ v, exec (.write fr t) s = .next v ∧ v.mem.cells = (u.rput a b).mem.cells ∧ Acked u v fr 0 ∧
        (∀ k, (∀ i, i < b.length → k ≠ u.phys (a + i)) → v.mem.get k = u.mem.get k) ∧ keeps v ∧
        (v.tport fr.port).rx = (fr.pseq.toNat + 1) % 2 ^ 24) ∧
      (∀ st, refused b.length = some st →
        ∃ v, exec (.write fr t) s = .next v ∧ v.mem.cells = u.mem.cells ∧ Acked u v fr st ∧ keeps v)) ∧
    (let r := adderBlock (u.rbytes a 1544) b
     Lands u 0x02 fr → Unperturbed u →
      (refused 1544 = none → u.dep.adders.contains (let e := u.page (rpageOf a); stackNum e.loc e.lstack) = false → env.ue = false →
        (u.poisonAt a 1544 = none → ∃ v, exec (.add fr env t) s = .next v ∧ v.mem.cells = (u.rput a r.1).mem.cells ∧
          Acked u v fr (if r.2 then 0x0003#16 else 0) ∧ keeps v) ∧
        (u.poisonAt a 1544 ≠ none → ∃ v, exec (.add fr env t) s = .next v ∧ v.mem.cells = u.mem.cells ∧ Acked u v fr 0x0340#16 ∧
          keeps v)) ∧
      (∀ st, refused 1544 = some st →
        ∃ v, exec (.add fr env t) s = .next v ∧ v.mem.cells = u.mem.cells ∧ Acked u v fr st ∧ keeps v)) ∧
    (let w := le b 0 8
     let f := bits w 33 32
     let k := bits w 31 20
     let e := u.entry f k
     Lands u 0x04 fr → w < 2 ^ 64 →
      (e.st = .free → u.trk.pending.countP (fun p => p.1 == f) < 512 →
        ∃ v, exec (.token fr t) s = .next v ∧ v.trk = { u.trk with pending := u.trk.pending ++ [(f, BitVec.ofNat 64 w, u.aon)],
                                                                              order := u.trk.order + 1 } ∧
          v.mem = u.mem ∧ v.stns = u.stns ∧ v.reqs = u.reqs) ∧
      (e.st = .waiting → e.desc.serial = bits w 63 40 → e.desc.parcel = bits w 39 36 → bits w 35 35 = 0 → bits w 34 34 = 1 → 1 < e.dept →
        ∃ v, exec (.token fr t) s = .next v ∧ v.entry f k = { e with dept := e.dept - 1 } ∧
          (∀ j, j ≠ f * 4096 + k → tget .free v.trk.table j = tget .free u.trk.table j) ∧ v.mem = u.mem ∧ v.stns = u.stns ∧ v.reqs = u.reqs)) ∧
    (let x := u.adaptOf p (le b 8 4)
     Lands u 0x08 fr → fr.addr = 0 → x.ended = none →
      ∃ v, exec (.grad fr t) s = .next v ∧ Acked u v fr 0 ∧
        v.adapts = (u.adapts.filter fun y => y.parcel != x.parcel || y.step != x.step) ++ [{ x with got := x.got ++ [(le b 6 2, b)] }] ∧
        v.mem = u.mem ∧ v.stns = u.stns ∧ v.reqs = u.reqs) ∧
    (let k : KvIn := { src := fr.src.toNat, sparcel := fr.sparcel.toNat, dparcel := p, module := le b 2 2, req := le b 0 2,
                       layer := le b 4 1, head := le b 5 1, blocks := le b 6 2, parts := [(0, b)] }
     Lands u 0x07 fr → fr.addr = 0 →
      (∀ rc, u.remoteRecipe p k.module k.req = some rc → b.length < 32 + k.blocks * (8 + 32 * rc.d) →
        ∃ v, exec (.kvseg fr t) s = .next v ∧ Acked u v fr 0 ∧ v.trv.kvIn.head? = some k ∧ v.reqs = u.reqs ∧ v.mem = u.mem) ∧
      (∀ rc r, u.remoteRecipe p k.module k.req = some rc → 32 + k.blocks * (8 + 32 * rc.d) ≤ b.length →
        u.remoteOf k.module k.req = some r → (u.req r).st = .shipping →
        let left := (u.req r).segs.erase (k.layer, k.head)
        ∃ v, exec (.kvseg fr t) s = .next v ∧ Acked u v fr 0 ∧ (v.req r).segs = left ∧
          (v.req r).st = (if left = [] then .decode else .shipping) ∧
          tget [] (v.req r).kv (256 * k.layer + k.head) = b.drop 32 ∧ (∀ y, y ≠ r → v.req y = u.req y) ∧
          v.mem = (u.kvStore (u.req r).parcel r k.layer k.head (b.drop 32)).mem))

/-- Frames that answer or control: an ACK ends the wait of its frame, a DROP or silence ends its request, REQCTL acts on the remote entry,
and MAILBOX brings the response of a RELAY (R342, R374, R376, R397, R422). Choices of the model in it: log entries 53 and 61. -/
def Obligations.FramesAnswer : Prop :=
  ∀ (s : State) (fr : TFrame) (u0 : MUnit) (x : SentFrame) (tag : BitVec 32) (r m t : Nat) (c : MUnit),
    let u := s.tickTo t
    let b := fr.payload
    let q := u.req r
    let lost (v : State) : Prop := v.sent = u.sent.erase x ∧ (v.req r).st = .ending ∧ (v.req r).endSt = 0x0590#16 ∧
      v.mem.cells = u.mem.cells ∧ v.mem.pages = u.mem.pages
    (Lands u 0x03 fr → u.sentTag fr.tag.toNat = some x → x.dest = fr.src.toNat → le b 0 2 = 0 → x.req = none →
      ∃ v, exec (.traverseAck fr t) s = .next v ∧ v.sent = u.sent.erase x ∧
        (∀ n, x.stn = some n → (v.core n).task.acksOut = (u.core n).task.acksOut.erase (frameAck x.tag)) ∧
        (∀ n, x.stn ≠ some n → v.stn n = u.stn n) ∧ v.mem = u.mem ∧ v.reqs = u.reqs ∧ v.trk = u.trk) ∧
    (Lands u 0x09 fr → le b 2 1 ≠ 0 → u.sentTag (le b 4 4) = some x → x.req = some r → q.live = true → q.dest = none →
      ∃ v, exec (.drop fr t) s = .next v ∧ lost v) ∧
    (u.sentTag tag.toNat = some x → x.since + 26000 ≤ u.aon → x.req = some r → q.live = true → q.dest = none →
      ∃ v, exec (.frameAckTimeout tag t) s = .next v ∧ lost v) ∧
    (Lands u 0x06 fr → u.remoteOf (le b 4 2) (le b 2 2) = some r → le b 0 1 = 1 → q.live = true → q.dest = none →
      ∃ v, exec (.reqctlCancel fr t) s = .next v ∧ (v.req r).st = .ending ∧ (v.req r).endSt = 0x0007#16 ∧ v.mem.cells = u.mem.cells) ∧
    (Lands u 0x06 fr → u.remoteOf (le b 4 2) (le b 2 2) = some r → le b 0 1 = 2 → q.st ≠ .ending →
      (u.servPort q.port).isSome = true → q.remote = some (le b 4 2, le b 2 2) →
      let ts := (q.gen.drop (le b 12 4)).take (le b 8 4)
      ts ≠ [] → ts.length ≤ max 1 (u.frameRoom q.port) →
      ∃ v, exec (.reqctlResend fr t) s = .next v ∧ v.req r = { q with frames := q.frames + 1 } ∧
        v.out = .serving ((u.servPort q.port).getD 0) q.addr q.udp 0x82 (q.frames % 65536) q.tag (le b 2 2) true 0 (le b 4 2) (le b 12 4)
          (tokenBytes ts) :: u.out ∧ (∀ y, y ≠ r → v.req y = u.req y) ∧ v.mem = u.mem) ∧
    (Lands u 0x06 fr → u.remoteOf (le b 4 2) (le b 2 2) = some r → le b 0 1 = 3 →
      ∃ v, exec (.reqEnd fr t) s = .next v ∧ v.req r = .free ∧ v.mem.cells = u.mem.cells ∧ ∀ y, (v.req y).gen = [] ∨ (v.req y).gen = (u.req y).gen) ∧
    (Lands u 0x05 fr → u0.ukind = 2#8 → NothingWaits { u with mbox := fput u.mbox m .reset } → m < 17 → (m = fr.dparcel.toNat ∨ m = 16) →
      [fr.dparcel.toNat, 16].find? (fun m => (u.box m).relay.any fun y => y.1 == relayKey fr.src.toNat u0.seq.toNat u0.tag.toNat) = some m →
      (u.box m).wait = some c → c.code = 3#16 → (u.box m).sync = [] → (u.box m).held = [] →
      ∃ v, exec (.mailbox fr u0 t) s = .next v ∧ (v.box m).relay = none ∧ (v.box m).wait = none ∧
        (v.box m).cache.head? = some { seq := c.seq, code := 0, tag := c.tag, pay := b } ∧ v.mem = u.mem ∧ v.reqs = u.reqs)

/-- A frame that fails a check of R375, or whose TYPE is reserved, is discarded and counted, one for another module whose hops are used up
expires (R380), and no frame on its way elsewhere changes this module. Choices of the model in it: log entries 57 and 153. -/
def Obligations.OtherFramesChangeNothing : Prop :=
  ∀ (s : State) (fr : TFrame) (st : Status) (t : Nat),
    let u := s.tickTo t
    let dropped (v : State) : BitVec 64 := ctrGet v.trv.ctr (18 * 16 + VC.dropped.num)
    let expired (v : State) : BitVec 64 := ctrGet v.trv.ctr (18 * 16 + VC.expired.num)
    Arrives u fr fr.port →
    (fr.dest.toNat % 4096 = u.own → u.frameCheck 0x01 fr = some st →
      ∃ v, exec (.write fr t) s = .next v ∧ KeepsModule u v ∧ (dropped v = dropped u + 1 ∨ dropped v = dropped u + 2)) ∧
    (∀ y : Byte, (y = 0 ∨ (0x0A < y.toNat ∧ y.toNat < 0x20) ∨ 0x22 < y.toNat) → fr.dest.toNat % 4096 = u.own →
      ∃ v, exec (.write { fr with typ := some y } t) s = .next v ∧ KeepsModule u v ∧ (dropped v = dropped u + 1 ∨ dropped v = dropped u + 2)) ∧
    (fr.dest.toNat % 4096 ≠ u.own → ∃ v, exec (.write fr t) s = .next v ∧ KeepsModule u v ∧
      (fr.hops.toNat % 4096 = 0 → expired v = expired u + 1))

/-- Closures travel: a CLOSURE that is newer than every one seen of its origin closes both ends of its port, the second REOPEN opens it, the
routes are computed anew 50 µs after the last event, and then take effect (R391 to R393). Choices of the model in it: log entries 2 and 57. -/
def Obligations.ClosuresAct : Prop :=
  ∀ (s : State) (port : Fin 18) (fr : TFrame) (v0 : Survey) (e t : Nat),
    let u := s.tickTo t
    let b := fr.payload
    let o := le b 0 2
    let x := (le b 4 2, le b 6 1)
    let y := (le b 8 2, le b 10 1)
    (Arrives u fr port → o ≠ u.own → (∀ z ∈ u.trv.cl.seen, z.1 = o → 0 < serialDist 16 (le b 2 2) z.2) →
      (u.frameCheck 0x21 fr = none → ∃ v, exec (.closure port fr t) s = .next v ∧ v.trv.cl.failed.contains x = true ∧
        v.trv.cl.failed.contains y = true ∧ tget 0 v.trv.cl.seen o = le b 2 2 ∧ v.trv.cl.event = some u.aon ∧ KeepsModule u v) ∧
      (u.frameCheck 0x22 fr = none → x ≠ y → o = x.1 → o ≠ y.1 → u.trv.cl.reopened.any (fun z => (z.1, z.2.1) == y) = true →
        ∃ v, exec (.reopen port fr t) s = .next v ∧ v.trv.cl.failed.contains x = false ∧ v.trv.cl.failed.contains y = false ∧
          v.trv.cl.event = some u.aon ∧ KeepsModule u v)) ∧
    (u.trv.cl.event = some e → e + 650 ≤ u.aon →
      exec (.routeRecompute t) s = .next { u with trv := { u.trv with cl := { u.trv.cl with event := none, running := true } } }) ∧
    (u.trv.cl.running = true → u.trv.survey = some v0 →
      ∃ v, exec (.routesTakeEffect t) s = .next v ∧ v.trv.cl.running = false ∧ v.trv.routes = v0.routes u.own u.trv.cl.failed ∧
        v.trv.cl.failed = u.trv.cl.failed ∧
        ctrGet v.trv.ctr (18 * 16 + VC.closures.num) = ctrGet u.trv.ctr (18 * 16 + VC.closures.num) + 1 ∧ KeepsModule u v)

/-- Flits on a link of the Traverse: a good flit in order is counted and acknowledged, an IDLE one carries its acknowledgement and credits
only, a bad one is answered by NAK, a NAK replays, nothing comes over a cage that is off by a fault, and a link that is silent or whose
retraining fails is FAILED (R6, R368 to R371, R539). Choices of the model in it: log entry 59. -/
def Obligations.TraverseFlitsAreAnswered : Prop :=
  ∀ (s : State) (k : Fin 18) (ty : BitVec 2) (fseq ack : BitVec 12) (nak : Bool) (dvc cvc : BitVec 3) (cr : BitVec 5) (first : BitVec 10)
    (pay : List Byte) (crc : BitVec 32) (errs t : Nat),
    let u := s.tickTo t
    let l := s.tlink k
    let i : Instr := .traverseFlit k ty fseq ack nak dvc cvc cr first pay crc errs
    let good : Prop := errs ≤ 12 ∧
      crc = crc32c (natLe 6 (flitHead ty.toNat fseq.toNat ack.toNat nak dvc.toNat cvc.toNat cr.toNat first.toNat) ++ pay)
    let legal := flitHeadLegal ty.toNat dvc.toNat cvc.toNat cr.toNat first.toNat
    let rest := l.ackedTo ack.toNat
    let n := rest.after ack.toNat
    let idle : Prop := ∀ p, s.portOf k = some p → (s.tport p).queue = []
    let counts (v : State) : Prop := ctrGet v.trv.ctr (k * 16 + VC.fec.num) = ctrGet s.trv.ctr (k * 16 + VC.fec.num) + BitVec.ofNat 64 errs ∧
      (∀ j, j ≠ k.val → v.tlink j = s.tlink j) ∧ v = { s with trv := v.trv, out := v.out }
    (s.panel.fault.getLsbD k = true → exec i s = .next s) ∧
    (s.linkUsed k = true → s.panel.fault.getLsbD k = false → l.st.carries = true → l.retrain = false →
      (¬ good → exec i s = .next { s with out := .traverseCtl k true ((l.expect + 4095) % 4096) 0 0 :: s.out }) ∧
      (good → legal = false → exec i s = .next s) ∧
      (good → legal = true → idle → (ty = 0 ∨ l.expect = fseq.toNat) → (nak = false ∨ n = 0) →
        ∃ v, exec i s = .next v ∧ (v.tlink k).expect = (if ty = 0 then l.expect else (fseq.toNat + 1) % 4096) ∧
          (v.tlink k).unacked = l.unacked.filter (fun u => decide (0 < serialDist 12 ((u.first + u.flits + 4095) % 4096) ack.toNat)) ∧
          (v.tlink k).used = (if cr = 0 then l.used else (l.credit cvc.toNat cr.toNat).used) ∧ (v.tlink k).st = l.st ∧
          v.out = (if ty = 0 then s.out else .traverseCtl k false fseq.toNat dvc.toNat
            (if s.withheld k dvc.toNat then 0 else if ty = 1 then 5 else 0) :: s.out) ∧
          ctrGet v.trv.ctr (k * 16 + VC.rx.num) = ctrGet s.trv.ctr (k * 16 + VC.rx.num) + (if ty = 1 then 1 else 0) ∧ counts v) ∧
      (good → legal = true → idle → ty = 0 → nak = true → n ≠ 0 → rest.replayed < 8 →
        ∃ v, exec i s = .next v ∧ (v.tlink k).replayed = rest.replayed + 1 ∧ (v.tlink k).unacked = rest.unacked ∧
          (v.tlink k).status.getLsbD 6 = true ∧ v.out = s.out ∧
          ctrGet v.trv.ctr (k * 16 + VC.replays.num) = ctrGet s.trv.ctr (k * 16 + VC.replays.num) + BitVec.ofNat 64 n ∧ counts v)) ∧
    (u.linkUsed k = true → l.st.carries = true →
      ∃ v, exec (.traverseLinkSilence k t) s = .next v ∧ (v.tlink k).st = .failed ∧ (v.tlink k).status.getLsbD 4 = true ∧ KeepsModule u v) ∧
    (l.retrain = true →
      (∃ v, exec (.traverseRetrainEnd k true t) s = .next v ∧ (v.tlink k).retrain = false ∧ (v.tlink k).replayed = 0 ∧
        (v.tlink k).st = l.st ∧ KeepsModule u v) ∧
      (∃ v, exec (.traverseRetrainEnd k false t) s = .next v ∧ (v.tlink k).st = .failed ∧ KeepsModule u v))

/-- The states of a link: FAILED for 10 ms to TRAINING, TRAINING for 50 ms to DOWN, trained to HELLO with its frame, QUARANTINED for 1 ms to
HELLO, PROBATION for 100 ms to ACTIVE, and what HELLO finds (R388 to R390). Choices of the model in it: log entries 2, 55 and 154. -/
def Obligations.LinksChangeState : Prop :=
  ∀ (s : State) (k : Fin 18) (fr : TFrame) (t : Nat),
    let u := s.tickTo t
    let l := u.tlink k
    let becomes (i : Instr) (st : LinkSt) : Prop := ∃ v, exec i s = .next v ∧ v.tlink k = { l with st := st, since := u.aon } ∧
      (∀ j, j ≠ k.val → v.tlink j = u.tlink j) ∧ v = { u with trv := v.trv }
    (l.st = .failed → l.since + 130000 ≤ u.aon → becomes (.linkFailedTimeout k t) .training) ∧
    (l.st = .training → l.since + 650000 ≤ u.aon → becomes (.linkTrainingTimeout k t) .down) ∧
    (u.panel.fault.getLsbD k = true → exec (.linkTrained k t) s = .next u) ∧
    (u.linkUsed k = true → u.panel.fault.getLsbD k = false → (l.st = .training ∨ l.st = .down) → u.sec.recover = none →
      ∃ v, exec (.linkTrained k t) s = .next v ∧ v.tlink k = { l.fresh with st := .hello, since := u.aon } ∧
        v.out = .linkFrame k 0x20 (u.helloPay k) :: u.out ∧ (∀ j, j ≠ k.val → v.tlink j = u.tlink j) ∧ KeepsModule u v) ∧
    (u.linkUsed k = true → u.inRecovery = false → l.st = .quarantined → l.since + 13000 ≤ u.aon →
      ∃ v, exec (.quarantineRetry k t) s = .next v ∧ v.tlink k = { l with st := .hello, since := u.aon } ∧
        v.out = .linkFrame k 0x20 (u.helloPay k) :: u.out ∧ (∀ j, j ≠ k.val → v.tlink j = u.tlink j) ∧ KeepsModule u v) ∧
    (l.st = .probation → l.since + 1300000 ≤ u.aon →
      ∃ v, exec (.probationEnd k t) s = .next v ∧ (v.tlink k).st = .active ∧ (v.tlink k).since = u.aon ∧ KeepsModule u v) ∧
    (u.linkUsed k = true → u.inRecovery = false → l.st = .hello → ecrcOk 0x20 fr = true → headLegal 0x20 fr = true →
      bodyLegal 0x20 fr = true →
      (∀ p, u.helloCheck k fr.payload = none → u.portOf k = some p →
        ∃ v, exec (.hello k fr t) s = .next v ∧
          (v.tlink k).st = (if u.trv.cl.failed.contains (u.own, p) then .probation else .active) ∧
          (v.tlink k).status = u.helloStatus k fr.payload (u.swapped k fr.payload) ∧ KeepsModule u v) ∧
      (∀ st, u.helloCheck k fr.payload = some st →
        ∃ v, exec (.hello k fr t) s = .next v ∧ (v.tlink k).st = .quarantined ∧
          ((v.tlink k).status >>> 16).setWidth 16 = st ∧ bits (v.tlink k).status.toNat 63 52 = le fr.payload 0 2 % 4096 ∧
          bits (v.tlink k).status.toNat 51 47 = le fr.payload 2 1 % 32 ∧ KeepsModule u v))

/-! ### Mailboxes -/

/-- Commands about the mailbox itself: SYNC binds the source, ECHO returns its payload, RELAY waits for its response and is refused inside a
relayed unit, the staging bytes are written and read, and notifications and doorbells are set up (R416, R418, R422, R423, R424, R429, R431).
A command that fails a check of R425 is answered with the status of that check and changes nothing else, and one that has been answered is
answered again from the cache (R416, R425). Choices of the model in it: log entries 63, 65, 66 and 115. -/
def Obligations.MailboxesAnswer : Prop :=
  (∀ (s : State) (m : Nat) (c : MUnit) (t : Nat),
     let u := s.tickTo t
     let b := c.payload
     let x := u.box m
     (MayRun u m c 0x0001 → ∃ v, exec (.sync c t) s = .next v ∧ Answered v m c 0 (natLe 2 x.nseq.toNat ++ natLe 2 u.modNum) ∧
       (v.box m).bound = some c.source ∧ KeepsModule u v) ∧
     (MayRun u m c 0x0002 → ∃ v, exec (.echo c t) s = .next v ∧ Answered v m c 0 b ∧ KeepsModule u v) ∧
     (MayRun u m c 0x0003 → c.source.transport = .traverse → ∃ v, exec (.relay c t) s = .next v ∧ Answered v m c 0x01B2#16 [] ∧ KeepsModule u v) ∧
     (MayRun u m c 0x0003 → c.source.transport ≠ .traverse → ∃ v, exec (.relay c t) s = .next v ∧ Executing v m c ∧
       (v.box m).relay = some (relayKey (le b 0 2) (le b 10 2) (le b 16 4), u.aon) ∧ v.trvTag = (u.trvTag + 1) % 2 ^ 32 ∧ KeepsModule u v) ∧
     (MayRun u m c 0x0010 → Tab.wf 0 x.staging = true → ∃ v, exec (.stageWrite c t) s = .next v ∧ Answered v m c 0 [] ∧
       (∀ i, i + 4 < b.length → tget 0 (v.box m).staging (le b 0 4 + i) = b.getD (i + 4) 0) ∧
       (∀ k, (k < le b 0 4 ∨ le b 0 4 + (b.length - 4) ≤ k) → tget 0 (v.box m).staging k = tget 0 x.staging k) ∧
       Tab.wf 0 (v.box m).staging = true ∧ KeepsModule u v) ∧
     (MayRun u m c 0x0011 → ∃ v, exec (.stageRead c t) s = .next v ∧
       Answered v m c 0 ((List.range (le b 4 2)).map fun i => tget 0 x.staging (le b 0 4 + i)) ∧ (v.box m).staging = x.staging ∧ KeepsModule u v) ∧
     (MayRun u m c 0x0070 → ∃ v, exec (.notifyConfig c t) s = .next v ∧ Answered v m c 0 [] ∧ v.vectorOf m (le b 0 2) =
         (if m = 16 then le b 0 2 % 64 else le b 2 1) ∧ tget 1 (v.box m).cthresh (le b 2 1) = le b 3 1 ∧
       tget 0 (v.box m).ctime (le b 2 1) = le b 4 2 ∧ KeepsModule u v) ∧
     (MayRun u m c 0x0071 → ∃ v, exec (.doorbellSet c t) s = .next v ∧ Answered v m c 0 [] ∧ (v.box m).net = le b 0 1 ∧
       (v.box m).bellAddr = addrOf (b.drop 16) ∧ (v.box m).bellUdp.toNat = le b 32 2 ∧ KeepsModule u v) ∧
     (Reaches u m c → c.ukind = 4#8 → ∃ v, exec (.notifyAck c t) s = .next v ∧
       (v.box m).queue = x.queue.filter (fun e => decide (0 < serialDist 16 e.1.toNat c.seq.toNat)) ∧ v = { u with mbox := v.mbox })) ∧
  (∀ (s : State) (m : Nat) (c : MUnit) (st : Status) (r : Resp) (t : Nat),
     let u := s.tickTo t
     (OnTurn u m c 0x0002 → u.cmdCheck m 0x0002 c.payload = some st → ∃ v, exec (.echo c t) s = .next v ∧ Answered v m c st [] ∧ KeepsModule u v) ∧
     (Reaches u m c → c.ukind = 1#8 → c.code = 2#16 → NothingWaits u → c.source.transport = .mgmt →
       -64 ≤ serialDist 16 c.seq.toNat (u.box m).next.toNat → serialDist 16 c.seq.toNat (u.box m).next.toNat < 0 →
       (u.box m).cache.find? (fun r => r.seq == c.seq) = some r →
       ∃ v, exec (.echo c t) s = .next v ∧ v.out = .unit m c.source 2 r.seq r.code r.tag r.pay :: u.out ∧
         ctrGet v.mboxCtr (m * 16 + BC.repeats.num) = ctrGet u.mboxCtr (m * 16 + BC.repeats.num) + 1 ∧ v.mbox = u.mbox ∧ KeepsModule u v))

/-- Commands that show state: PARCEL_INFO, REG_READ, CAIRN_READ, PAGE_ENTRY and TPERT_ACCESS answer with what the module holds (R295, R424,
R524, R526). Choices of the model in it: log entries 16 and 100. -/
def Obligations.MailboxesShowState : Prop :=
  ∀ (s : State) (m : Nat) (c : MUnit) (t : Nat),
    let u := s.tickTo t
    let b := c.payload
    (MayRun u m c 0x0020 → ∃ v pay, exec (.parcelInfo c t) s = .next v ∧ Answered v m c 0 pay ∧ pay.length = 64 ∧
      pay.take 2 = natLe 1 (u.parcel (le b 0 1)).st.num ++ natLe 1 (tget 0 u.mem.mgen (le b 0 1)).toNat ∧ KeepsModule u v) ∧
    (MayRun u m c 0x0080 → ∀ r x, regNamed b = some r → (begun u m c).regValue r (le b 2 2) = some x →
      ∃ v, exec (.regRead c t) s = .next v ∧ Answered v m c 0 (natLe 8 x) ∧ KeepsModule u v) ∧
    (MayRun u m c 0x0081 → ∃ v, exec (.cairnRead c t) s = .next v ∧
      Answered v m c 0 ((List.range (le b 2 1)).flatMap fun k => tget (List.replicate 128 0xFF#8) u.cairn.slots ((le b 0 2 + k) % 8192)) ∧
      KeepsModule u v) ∧
    (MayRun u m c 0x0042 → runHigh (le b 0 4) 1 = false → (m < 16 → u.mayRead m (le b 0 4) = true) →
      ∃ v, exec (.pageEntry c t) s = .next v ∧ Answered v m c 0 (u.page (le b 0 4)).bytes ∧ KeepsModule u v) ∧
    (MayRun u m c 0x00B0 → le b 0 4 % 8 = 0 → le b 0 4 ≤ 0x200 →
      (le b 4 1 = 0 → ∃ v, exec (.tpertAccess c t) s = .next v ∧ Answered v m c 0 (natLe 8 (u.tpertValue (le b 0 4)).toNat) ∧
        v.dep = u.dep ∧ KeepsModule u v) ∧
      (le b 4 1 = 1 → le b 0 4 % 32 = 16 → le b 0 4 < 0x200 → bits (le b 8 8) 62 44 = 0 →
        ∃ v, exec (.tpertAccess c t) s = .next v ∧ Answered v m c 0 (natLe 8 (le b 8 8)) ∧
          (v.tpert (le b 0 4 / 32)).addr = BitVec.ofNat 64 (le b 8 8) ∧
          (∀ e, e ≠ le b 0 4 / 32 → v.tpert e = u.tpert e) ∧ KeepsModule u v))

/-- Commands about Parcels and their objects: PARCEL_RESET stops and clears the Parcel, recipes are bound and unbound, graphs run, and
masks, grammars, codebooks and windows are registered; a mask that the quota does not hold and a grammar that is not legal are refused
(R346, R347, R351, R354, R357, R383, R424, R432). Choices of the model in it: log entries 64, 67, 68, 146 and 148. -/
def Obligations.ParcelsAreCommanded : Prop :=
  ∀ (s : State) (m : Nat) (c : MUnit) (t : Nat),
    let u := s.tickTo t
    let b := c.payload
    let q := u.parcel m
    let fits (w : State) : Prop := ∀ k, k < 4 → w.usage m 0 k (2 ^ 23) ≤ q.quota 0 k ∨ w.usage m 0 k (2 ^ 23) ≤ u.usage m 0 k (2 ^ 23)
    (MayRun u m c 0x0021 → m < 16 → le b 0 1 = m → q.st = .active → ∃ v, exec (.parcelReset c t) s = .next v ∧ (v.parcel m).st = .resetting ∧
      (v.parcel m).recipes = [] ∧ (v.parcel m).windows = [] ∧ (v.parcel m).insts = [] ∧
      tget 0 v.mem.mgen m = tget 0 u.mem.mgen m + 1 ∧ (tkeys v.presets).contains m = true ∧
      (∀ r, (u.req r).live = true → (u.req r).parcel = m → (v.req r).st = .ending) ∧
      (∀ k, (tget .free v.trk.table k).st ≠ .free → (tget .free v.trk.table k).desc.parcel = m → (tget .free v.trk.table k).desc.kind = 5) ∧
      (∀ n, n < 64 → q.stations.getLsbD n = true → (u.core n).task.kat = false → (v.core n).slots = [])) ∧
    (MayRun u m c 0x0030 → ∀ r, 4 ≤ stationCount q.stations → 40960 ≤ q.quotaH → q.recipes.length < 16 →
      u.recipeAt m (le b 0 4) (le b 4 8) = .ok r → ∃ v, exec (.recipeBind c t) s = .next v ∧ Answered v m c 0 [] ∧
      (v.parcel m).recipes = q.recipes.filter (fun x => x.1 != le b 0 4) ++ [(le b 0 4, r)] ∧ KeepsModule u v) ∧
    (MayRun u m c 0x0031 → (u.recipe m (le b 0 4)).isSome = true →
      u.reqs.any (fun x => x.2.live && x.2.parcel == m && x.2.blk.recipe == le b 0 4) = false →
      ∃ v, exec (.recipeUnbind c t) s = .next v ∧ Answered v m c 0 [] ∧
        (v.parcel m).recipes = q.recipes.filter (fun x => x.1 != le b 0 4) ∧ KeepsModule u v) ∧
    (MayRun u m c 0x0060 → ∀ r g x, u.recipe m (le b 0 4) = some r →
      r.graphs.find? (fun g => g.graph == le b 4 2 && g.gkind == 2) = some g →
      (u.plan.mode = 2 ∨ (u.template g).any (fun d => d.kind == 4) = false) → u.argBusy m (le b 0 4) (u.serialFor m none) g = false →
      (begun u m c).instantiate m (le b 0 4) g 0 0 none ((b.drop 8).take 16) = some x →
      ∃ v, exec (.graphRun c t) s = .next v ∧ Answered v m c 0 (natLe 4 x.2) ∧ v.trk = x.1.trk ∧ v.parcels = x.1.parcels ∧
        x.2 = (if 0xFFFFFF < q.serial then 1 else q.serial)) ∧
    (let mask := u.stageGet m (le b 6 4) (ceilDiv (le b 2 4) 8)
     let fits := fits (u.modParcel m fun q => { q with masks := fput q.masks (le b 0 2) mask })
     MayRun u m c 0x0050 →
      (fits → ∃ v, exec (.maskLoad c t) s = .next v ∧ Answered v m c 0 [] ∧ tget [] (v.parcel m).masks (le b 0 2) = mask ∧
        KeepsModule u v) ∧
      (¬ fits → ∃ v, exec (.maskLoad c t) s = .next v ∧ Answered v m c 0x02B3#16 [] ∧ v.parcels = u.parcels ∧ KeepsModule u v)) ∧
    (let gram := u.stageGet m (le b 2 4) (le b 6 4)
     MayRun u m c 0x0051 →
      (gramOk gram = true → fits (u.modParcel m fun q => { q with grammars := fput q.grammars (le b 0 2) gram }) →
        ∃ v, exec (.grammarLoad c t) s = .next v ∧ Answered v m c 0 [] ∧ tget [] (v.parcel m).grammars (le b 0 2) = gram ∧
          KeepsModule u v) ∧
      (gramOk gram = false → ∃ v, exec (.grammarLoad c t) s = .next v ∧ Answered v m c 0x0197#16 [] ∧ v.parcels = u.parcels ∧
        KeepsModule u v)) ∧
    (let rs := q.recipes.filter fun r => decide (le b 0 2 < r.2.ncbset)
     let g := ((q.newest (le b 0 2)).map (· + 1)).getD 0
     MayRun u m c 0x0052 → rs ≠ [] → zeros (u.stageGet m (le b 2 4) 4104) 4097 7 = true →
      (4 ≤ g → u.bookInUse m (le b 0 2) (g % 4) = false) →
      ∃ v, exec (.codebookLoad c t) s = .next v ∧ Answered v m c 0 (natLe 1 g) ∧ (v.parcel m).books = fput q.books (le b 0 2) g ∧
        v.mem.cells = (rs.foldl (fun s r => s.rput (r.2.bookAddr (le b 0 2) (g % 4)) (u.stageGet m (le b 2 4) 4104)) u).mem.cells ∧
        v.mem.pages = u.mem.pages ∧ v.stns = u.stns ∧ v.reqs = u.reqs) ∧
    (let w : Window := { base := le b 2 4, pages := le b 6 4, module := le b 10 2, parcel := le b 12 1, rbase := le b 16 8, perm := le b 1 1 }
     MayRun u m c 0x0053 →
      (w.pages = 0 → ∃ v, exec (.windowSet c t) s = .next v ∧ Answered v m c 0 [] ∧ (v.parcel m).windows = tdel q.windows (le b 0 1) ∧
        KeepsModule u v) ∧
      (w.pages ≠ 0 → 0xE * 2 ^ 19 ≤ w.base → w.base + w.pages ≤ 0xF * 2 ^ 19 →
        (∀ x ∈ q.windows, x.1 ≠ le b 0 1 → ¬ (w.base < x.2.base + x.2.pages ∧ x.2.base < w.base + w.pages)) →
        q.peers.contains (w.module, w.parcel) = true →
        ∃ v, exec (.windowSet c t) s = .next v ∧ Answered v m c 0 [] ∧ tget w (v.parcel m).windows (le b 0 1) = w ∧
          (v.parcel m).windows = fput q.windows (le b 0 1) w ∧ KeepsModule u v))

/-- Commands about memory: pages are mapped, unmapped, written, read, shared and restored, and each is answered (R297, R298, R317, R320,
R321). Choices of the model in it: log entries 20, 66 and 91. -/
def Obligations.MemoryIsCommanded : Prop :=
  ∀ (s : State) (m : Nat) (c : MUnit) (t : Nat),
    let u := s.tickTo t
    let b := c.payload
    let run := runPages (le b 4 4) (le b 8 4)
    (MayRun u m c 0x0040 → ∀ w, runHigh (le b 0 4) (le b 4 4) = false →
      (∀ g ∈ runPages (le b 0 4) (le b 4 4), ∀ x ∈ u.mem.pages, x.1 = g → x.2.valid = false) →
      u.usage m (le b 8 1) (le b 9 1) (2 ^ 23) + le b 4 4 ≤ (u.parcel m).quota (le b 8 1) (le b 9 1) →
      (begun u m c).mapPages m (le b 8 1) (le b 9 1) (runPages (le b 0 4) (le b 4 4)) = some w →
      ∃ v, exec (.pageAlloc c t) s = .next v ∧ Answered v m c 0 [] ∧ v.mem.cells = u.mem.cells ∧
        (∀ g ∈ runPages (le b 0 4) (le b 4 4), ∃ f, v.page g = newPage m (le b 8 1) (le b 9 1) f) ∧
        (∀ g, g ∉ runPages (le b 0 4) (le b 4 4) → v.page g = u.page g)) ∧
    (MayRun u m c 0x0041 → runHigh (le b 0 4) (le b 4 4) = false → u.genBlocked m = false →
      (∀ g ∈ runPages (le b 0 4) (le b 4 4), (u.page g).valid = true ∧ (u.page g).owner = m ∧ (u.page g).cls ≠ .wShared ∧
        (u.page g).st ≠ .unmapPending) →
      let moves (g : Nat) : Prop := (u.page g).st = .moving ∨ (u.page g).st = .programming
      ∃ v, exec (.pageFree c t) s = .next v ∧ Answered v m c 0 [] ∧ tget 0 v.mem.mgen m = tget 0 u.mem.mgen m + 1 ∧
        (∀ g ∈ runPages (le b 0 4) (le b 4 4), (¬ moves g → v.page g = { u.page g with st := .unmapPending }) ∧
          (moves g → v.page g = u.page g) ∧ (g, m, tget 0 u.mem.mgen m + 1, true) ∈ v.mem.unmaps) ∧
        (∀ g, g ∉ runPages (le b 0 4) (le b 4 4) → v.page g = u.page g) ∧ v.mem.cells = u.mem.cells) ∧
    (let gs := pagesOf (le b 0 8) (le b 12 4)
     MayRun u m c 0x0043 → (∀ g ∈ gs, g / 2 ^ 19 < 0xE ∧ u.pageCheck true m g = none ∧ u.stackRefuses g = none ∧ (u.page g).st ≠ .moving) →
      ∃ v, exec (.dataIn c t) s = .next v ∧ Answered v m c 0 [] ∧ v.mem.pages = u.mem.pages ∧
        v.mem.cells = (u.rput (le b 0 8) (u.stageGet m (le b 8 4) (le b 12 4))).mem.cells ∧
        (∀ k, (∀ i, i < le b 12 4 → k ≠ u.phys (le b 0 8 + i)) → v.mem.get k = u.mem.get k) ∧ v.stns = u.stns ∧ v.reqs = u.reqs) ∧
    (let gs := pagesOf (le b 0 8) (le b 8 2)
     MayRun u m c 0x0044 → (∀ g ∈ gs, g / 2 ^ 19 < 0xE ∧ u.mayRead m g = true ∧ u.stackRefuses g = none ∧ (u.page g).bad = false) →
      u.poisonAt (le b 0 8) (le b 8 2) = none →
      ∃ v, exec (.dataOut c t) s = .next v ∧ Answered v m c 0 (u.rbytes (le b 0 8) (le b 8 2)) ∧ v.mem.cells = u.mem.cells ∧
        v.mem.pages = u.mem.pages ∧ v.stns = u.stns ∧ v.reqs = u.reqs) ∧
    (MayRun u m c 0x00A0 → ∀ w, runHigh (le b 4 4) (le b 8 4) = false →
      (∀ g ∈ run, (u.page g).valid = true ∧ (u.page g).owner = le b 0 1 ∧ (u.page g).cls = .wPrivate ∧ (u.page g).st = .resident ∧
        u.mem.wjobs.any (fun j => j.rpage == g && j.why == .mirror) = false ∧ (u.page g).hstack ≠ le b 1 1) →
      u.usage (le b 0 1) 2 0 (2 ^ 23) + run.length ≤ (u.parcel (le b 0 1)).quotaW →
      (u.stack (20 + le b 1 1)).status.getLsbD 4 = true → (begun u m c).publishAll (le b 1 1) run = some w →
      ∃ v, exec (.sharePublish c t) s = .next v ∧ Answered v m c 0 [] ∧ v.mem.pages = u.mem.pages ∧ v.mem.cells = u.mem.cells ∧
        ∀ g ∈ run, ∃ j ∈ v.mem.wjobs, j.rpage = g ∧ j.why = .mirror ∧ j.stack = 20 + le b 1 1 ∧ j.chunks = 8) ∧
    (MayRun u m c 0x00A1 → u.allShared (le b 4 4) (le b 8 4) = true → ∃ v, exec (.shareGrant c t) s = .next v ∧ Answered v m c 0 [] ∧
      (∀ g ∈ run, v.page g = { u.page g with share := (u.page g).share ||| BitVec.ofNat 16 (le b 0 2) }) ∧
      (∀ g, g ∉ run → v.page g = u.page g) ∧ v.mem.cells = u.mem.cells ∧ v.reqs = u.reqs) ∧
    (MayRun u m c 0x00A2 → u.allShared (le b 4 4) (le b 8 4) = true → (∀ p, p < 16 → u.genBlocked p = false) →
      ∃ v, exec (.shareRevoke c t) s = .next v ∧ Answered v m c 0 [] ∧ v.mem.cells = u.mem.cells ∧ v.reqs = u.reqs ∧
        ∀ g ∈ run, ∀ p, p < 16 → (le b 0 2).testBit p = true → (u.page g).share.getLsbD p = true →
          (g, p, tget 0 u.mem.mgen p + 1, false) ∈ v.mem.unmaps) ∧
    (let g := le b 0 4
     let k := 20 + (u.page g).hstack
     MayRun u m c 0x00A3 → ∀ f w, runHigh g 1 = false → (u.page g).valid = true → (u.page g).cls = .wShared →
      u.mem.lost.contains g = true → (u.page g).st ≠ .restoring → (u.stack k).status.getLsbD 4 = true →
      (begun u m c).pickFrame k = (w, some f) →
      ∃ v, exec (.pageReload c t) s = .next v ∧ Answered v m c 0 [] ∧ v.page g = { u.page g with st := .restoring } ∧
        (∀ h, h ≠ g → v.page h = u.page h) ∧
        v.mem.cells = (u.mem.puts (physKey k f 0) (u.stageGet m (le b 4 4) (2 ^ 21))).cells ∧
        ∃ j ∈ v.mem.wjobs, j.stack = k ∧ j.frame = f ∧ j.rpage = g ∧ j.why = .reload)

/-- Commands about plans, firmware and keys: an object that passes its checks is to be written, an Overlay that passes is to be applied at
the next quiescent point, ATTEST takes the next signature number and one unit of the bucket, and DEBUG_UNLOCK gives a challenge and takes a
valid answer to it in maintenance mode alone (R445 to R448, R464 to R467, R471, R472). Choices of the model in it: log entries 14 and 81. -/
def Obligations.PlansAndKeysAreCommanded : Prop :=
  ∀ (s : State) (m : Nat) (c : MUnit) (t : Nat),
    let u := s.tickTo t
    let b := c.payload
    let x := u.sec
    (let bs := u.stageGet m (le b 4 4) (le b 8 4)
     MayRun u m c 0x0090 → ∀ p, le b 0 1 = 0 → u.nv = true → u.wrapCheck 0 bs = none → u.planCheck 0 bs = .ok p → x.flash = [] →
      ∃ v, exec (.planLoad c t) s = .next v ∧ Executing v m c ∧
        v.sec.flash = [{ why := .base p, left := flashOps bs.length, busy := true, mbox := m, unit := some c }] ∧ v.plan = u.plan ∧
        v.sec.image = x.image ∧ v.mem = u.mem ∧ v.stns = u.stns) ∧
    (let a : Apply := { mode := le b 0 1, from' := u.aon, unit := some c, resets := false, base := u.plan.stored }
     MayRun u m c 0x0091 → configOk (u.plan.target a).1 (u.plan.target a).2 u.transit = true →
      ∃ v, exec (.overlayApply c t) s = .next v ∧ Executing v m c ∧ v.plan = { u.plan with apply := some a } ∧ KeepsModule u v) ∧
    (let bs := u.stageGet m (le b 0 4) (le b 4 4)
     MayRun u m c 0x00C0 → u.nv = true → le bs 0 4 ≠ 0x584B4559 → imageCheck x.svn bs = none → x.flash = [] →
      ∃ v, exec (.imageUpdate c t) s = .next v ∧ Executing v m c ∧
        v.sec.flash = [{ imageJob bs m (some c) u.inRecovery with busy := true }] ∧ v.sec.image = { x.image with valid := false } ∧
        v.mem = u.mem ∧ v.stns = u.stns) ∧
    (MayRun u m c 0x00C1 → u.nv = true → x.bucket ≠ 0 → x.nextQ < 1048576 →
      ∃ v, exec (.attest c t) s = .next v ∧ Executing v m c ∧ v.sec.nextQ = x.nextQ + 1 ∧ v.sec.bucket = x.bucket - 1 ∧
        v.sec.attests = x.attests ++ [{ mbox := m, unit := c, q := x.nextQ, done := false }] ∧ v.sec.lmsBusy = true ∧ v.mem = u.mem) ∧
    (MayRun u m c 0x00C1 → u.nv = true → x.bucket = 0 → ∃ v, exec (.attest c t) s = .next v ∧ Answered v m c 0x02D1#16 [] ∧
      v.sec.nextQ = x.nextQ ∧ v.sec.bucket = 0) ∧
    (MayRun u m c 0x00C2 → le b 0 1 = 0 → ∃ v d, exec (.debugChallenge c t) s = .next v ∧ Answered v m c 0 (bytes48 d) ∧
      v.sec.challenge = some (d, u.aon) ∧ v.mem = u.mem ∧ v.stns = u.stns) ∧
    (MayRun u m c 0x00C2 → le b 0 1 = 1 → u.plan.mode ≠ 3 → ∃ v, exec (.debugAuthorise c t) s = .next v ∧
      Answered v m c 0x02C1#16 [] ∧ v.sec.challenge = none ∧ v.sec.dbg = x.dbg) ∧
    (MayRun u m c 0x00C2 → le b 0 1 = 1 → u.plan.mode = 3 → (∀ d a, x.challenge = some (d, a) → a + 1300000000 ≤ u.aon) →
      ∃ v, exec (.debugAuthorise c t) s = .next v ∧ Answered v m c 0x02D0#16 [] ∧ v.sec.challenge = none ∧ v.sec.dbg = x.dbg) ∧
    (MayRun u m c 0x00C2 → ∀ d a, le b 0 1 = 1 → u.plan.mode = 3 → x.challenge = some (d, a) →
      u.aon < a + 1300000000 → u.debugAuthOk d (u.stageGet m (le b 4 4) 3124) = true → u.nv = true → x.dbg < 16 → x.fuseBusy = none →
      ∃ v, exec (.debugAuthorise c t) s = .next v ∧ Executing v m c ∧ v.sec.challenge = none ∧ v.sec.dbgStep = some (c, 1) ∧
        v.sec.fuseBusy = some true ∧ v.sec.open' = x.open' ∧ v.mem = u.mem)

/-- The timers of the mailboxes, the end of a Parcel reset and the sampling window (R72, R416, R422, R428, R430, R433). Choices of the model
in it: log entries 2, 73, 113 and 148. -/
def Obligations.MailboxTimersAct : Prop :=
  ∀ (s : State) (m : Fin 17) (p : Fin 16) (seq nc : BitVec 16) (vec : BitVec 6) (h : HeldCmd) (c : MUnit) (k since t : Nat) (x : Note)
    (r : PReset),
    let u := s.tickTo t
    let b := u.box m
    (b.held.find? (fun h => h.u.seq == seq && h.gap && decide (h.at' + 13000 ≤ u.aon)) = some h → h.u.source.transport = .mgmt →
      ∃ v, exec (.heldCommandTimeout m seq t) s = .next v ∧ (v.box m).held = b.held.erase h ∧
        v.out = .unit m h.u.source 2 h.u.seq 0x07A1#16 h.u.tag [] :: u.out ∧ KeepsModule u v) ∧
    (b.relay = some (k, since) → b.wait = some c → c.code = 3#16 → since + 26000 ≤ u.aon →
      NothingWaits { u with mbox := fput u.mbox m .reset } → b.sync = [] → b.held = [] →
      ∃ v, exec (.relayTimeout m t) s = .next v ∧ (v.box m).relay = none ∧ (v.box m).wait = none ∧
        (v.box m).cache.head? = some { seq := c.seq, code := 0x0533#16, tag := c.tag, pay := [] } ∧ KeepsModule u v) ∧
    (b.pendN.find? (fun y => y.vector == vec.toNat && y.ncode == nc.toNat) = some x → x.first + tget 0 b.ctime vec.toNat ≤ u.aon →
      b.queue.length < 1024 →
      ∃ v, exec (.coalesceTimeout m vec nc t) s = .next v ∧ (v.box m).pendN = b.pendN.erase x ∧
        (v.box m).queue = b.queue ++ [(b.nseq, { x with overflow := b.lost })] ∧ (v.box m).nseq = b.nseq + 1 ∧ KeepsModule u v) ∧
    (b.resent + 13000 ≤ u.aon → ∀ d, b.bound = some d → d.transport = .mgmt →
      ∃ v, exec (.notifyResendTimer m t) s = .next v ∧ (v.box m).resent = u.aon ∧ (v.box m).queue = b.queue ∧
        v.out = (b.queue.map fun e => Out.unit m d 3 e.1 0 0 e.2.bytes).reverse ++ u.out ∧ KeepsModule u v) ∧
    (u.presets.find? (fun x => x.1 == p.val) = some (p.val, r) → (u.parcel p).st = .resetting → u.resetDone p r = true → r.forPlan = false →
      r.units = [] → NothingWaits u →
      ∃ v, exec (.parcelResetComplete p t) s = .next v ∧ (v.parcel p).st = .active ∧ (v.parcel p).serial = 1 ∧
        v.presets = tdel u.presets p ∧ v.draws = u.draws + 1 ∧
        (∀ y, y ≠ p.val → v.parcel y = u.parcel y) ∧ KeepsModule u v) ∧
    ((u.parcel p).st ≠ .absent → ∃ v, exec (.sampleWindow p t) s = .next v ∧ KeepsModule u v ∧
      (∀ n, n < 64 → (u.parcel p).stations.getLsbD n = true → tget [] v.dep.samples n = (u.core n).sample) ∧
      (∀ n, (u.parcel p).stations.getLsbD n = false → tget [] v.dep.samples n = tget [] u.dep.samples n))

/-- The I3C target: a private write brings a unit, a private read takes the oldest pending one, and the common command codes act on address,
interrupts and lengths as the table of R421 states. A halted Bezel refuses private transfers (R421, R458). Choices of the model in it: log
entry 15. -/
def Obligations.I3cTargetAnswers : Prop :=
  ∀ (s : State) (c : MUnit) (ev : BitVec 8) (st ad : BitVec 7) (len : BitVec 16) (x : Bool × List Byte) (r : List (Bool × List Byte)) (t : Nat),
    let u := s.tickTo t
    let set (i : I3c) : State := { s with i3c := i }
    let say (b : List Byte) : State := { s with out := .i3c b :: s.out }
    s.pwr.powered = true →
    (u.sec.halted = true → exec (.i3cPrivateWrite c t) s = .next (u.emit .i3cNack) ∧ exec (.i3cPrivateRead t) s = .next (u.emit .i3cNack)) ∧
    (u.sec.halted = false →
      exec (.i3cPrivateWrite c t) s = .next ((u.emit .i3cAck).receive { c with source := { c.source with transport := .i3c } }) ∧
      (s.i3c.pending = x :: r → exec (.i3cPrivateRead t) s = .next { u with i3c := { u.i3c with pending := r }, out := .i3c x.2 :: u.out }) ∧
      (s.i3c.pending = [] → exec (.i3cPrivateRead t) s = .next { u with out := .i3c (unitBytes 0 0 0 0 0 []) :: u.out })) ∧
    exec (.enec ev) s = .next (set { s.i3c with ibi := s.i3c.ibi || ev.getLsbD 0 }) ∧
    exec (.disec ev) s = .next (set { s.i3c with ibi := s.i3c.ibi && !ev.getLsbD 0 }) ∧
    exec .rstdaa s = .next (set { s.i3c with dynAddr := none }) ∧
    exec (.entdaa ad) s = .next (set { s.i3c with dynAddr := s.i3c.dynAddr.orElse fun _ => some ad }) ∧
    (st.toNat = 0x3A + s.pwr.modsel.toNat → s.i3c.dynAddr = none → exec (.setdasa st ad) s = .next (set { s.i3c with dynAddr := some ad })) ∧
    (s.i3c.dynAddr.isSome = true → exec (.setnewda ad) s = .next (set { s.i3c with dynAddr := some ad })) ∧
    (1044 ≤ len.toNat →
      exec (.setmwl len) s = .next { s with i3c := { s.i3c with mwl := len.toNat }, out := .i3cAck :: s.out } ∧
      exec (.setmrl len) s = .next { s with i3c := { s.i3c with mrl := len.toNat }, out := .i3cAck :: s.out }) ∧
    (len.toNat < 1044 → exec (.setmwl len) s = .next { s with out := .i3cNack :: s.out }) ∧
    exec .getmwl s = .next (say [BitVec.ofNat 8 (s.i3c.mwl / 256), BitVec.ofNat 8 s.i3c.mwl]) ∧
    exec .getmrl s = .next (say [BitVec.ofNat 8 (s.i3c.mrl / 256), BitVec.ofNat 8 s.i3c.mrl]) ∧
    exec .getbcr s = .next (say [0x06#8]) ∧ exec .getdcr s = .next (say [0x00#8]) ∧
    (∃ b, b.length = 6 ∧ exec .getpid s = .next (say b)) ∧
    (∃ b, exec .getstatus s = .next (say [if s.sec.halted then 1 else if s.sec.recover.isSome then 2 else if s.sec.open' then 3 else 0, b]))

/-! ### Boot, recovery and security -/

/-- Resets and the boot: power-up from a held input, the PLL's lock, the release of the reset and RESET_N, its assertion, and what follows
from each (R457, R458, R468, R485, R491, R492). Choices of the model in it: log entries 10, 14, 77, 78 and 80. -/
def Obligations.TheModuleBoots : Prop :=
  ∀ (s : State) (ok high : Bool) (vin : BitVec 16) (ms : BitVec 2) (t : Nat),
    let u := s.tickTo t
    (u.held = true → u.pwr.resetN = true → ∃ v, exec (.powerOnReset t ok) s = .next v ∧ BootLeads u v ok ∧ v.aon = u.aon) ∧
    (s.pwr.resetN = false → s.held = true → ∃ w v, exec (.resetNHigh ms ok) s = .next v ∧ BootLeads w v ok ∧ v.aon = 0 ∧
      w = { s with aon := 0, pwr := { s.pwr with resetN := true, modsel := ms }, panel := { s.panel with present := w.panel.present } }) ∧
    (s.pwr.resetN = true → exec (.resetNHigh ms ok) s = .next s) ∧
    (u.pwr.powered = true → ∃ v, exec (.resetNLow t) s = .next v ∧ Cleared u v ∧ v.pwr.resetN = false ∧ v.pwr.powered = true ∧
      v.dep.hours = u.dep.hours ∧ v.dep.withdrawn = u.dep.withdrawn) ∧
    (s.pwr.powered = false → 4000 ≤ vin.toNat → vin.toNat ≤ 5000 → ∃ v, exec (.powerUp vin high) s = .next v ∧ Cleared s v ∧
      v.pwr.powered = true ∧ v.pwr.vin = vin ∧ v.pwr.resetN = high ∧ v.pwr.supply = (if vin.toNat ≤ 4150 then .sag else .normal) ∧
      v.pwr.ctr = [] ∧ v.aon = 0 ∧ v.dep.withdrawn = 0 ∧ v.dep.rail = 0 ∧ v.clk.fault = 0 ∧ v.clk.div = 6 ∧ (∀ n, v.spow n = .off)) ∧
    ((vin.toNat < 4000 ∨ 5000 < vin.toNat) → exec (.powerUp vin high) s = .next s) ∧
    (s.pwr.powered = true → exec .pllLock s = .next { s with clk := { s.clk with pll := true, refOk := true }, pwr := { s.pwr with ok := true } })

/-- Recovery: every second the lowest of the links T0 to T8 that carries images is asked for the image's first four parts, an answer is
kept, an unanswered request is repeated, and a neighbour's request is answered from the image (R468, R469). Choices of the model in it: log
entries 62 and 101. -/
def Obligations.ImagesAreFetched : Prop :=
  ∀ (s : State) (k : Fin 18) (fr : TFrame) (r : Recov) (q : Nat × Nat × Nat × Nat) (t : Nat),
    let u := s.tickTo t
    let frame (j tag off : Nat) (b : List Byte) : Out := .traverse 18 j 0 0 0x0A 0 0 0 0 tag off 0 0
      (crc32c (trvHead 0x0A 0 0 0 1 0 0 0 0 0 b.length 0 tag off ++ b)) b
    let ask (j tag off : Nat) : Out := frame j tag off []
    let pay := (u.sec.image.bytes.drop fr.addr.toNat).take 4096
    (u.sec.recover = some r → r.link = 18 → r.since + 13000000 ≤ u.aon →
      (List.range 9).find? (fun j => u.imageLink j) = some k.val →
      ∃ v x, exec (.recoveryRetry t) s = .next v ∧ v.sec.recover = some x ∧ x.link = k ∧ x.got = [] ∧ x.reqs.map (·.2.1) = [0, 4096, 8192, 12288] ∧
        ask k r.tag 0 ∈ v.out ∧ KeepsModule u { v with sec := u.sec }) ∧
    (u.sec.recover = some r → r.reqs.find? (fun q => decide (q.2.2.2 + 13000 ≤ u.aon)) = some q → r.link = k →
      (q.2.2.1 < 3 → ∃ v x, exec (.imageRequestRepeat k t) s = .next v ∧ v.sec.recover = some x ∧ x.link = k ∧ x.reqs.length = r.reqs.length ∧
        (q.1, q.2.1, q.2.2.1 + 1, u.aon) ∈ x.reqs ∧ v.out = ask k q.1 q.2.1 :: u.out ∧ KeepsModule u { v with sec := u.sec }) ∧
      (3 ≤ q.2.2.1 → ∃ v x, exec (.imageRequestRepeat k t) s = .next v ∧ v.sec.recover = some x ∧ (x.link = 18 ∨ k < x.link) ∧ x.got = [] ∧
        KeepsModule u { v with sec := u.sec })) ∧
    (u.imageLink k = true → ecrcOk 0x0A fr = true → headLegal 0x0A fr = true → fr.dest = 0 → fr.src = 0 →
      (fr.payload = [] → u.inRecovery = false → u.sec.image.valid = true → u.sec.flash = [] → pay ≠ [] →
        ∃ v, exec (.image k fr t) s = .next v ∧ v.out = frame k fr.tag.toNat fr.addr.toNat pay :: u.out ∧
          ctrGet v.pwr.ctr PC.imageAnswers.num = ctrGet u.pwr.ctr PC.imageAnswers.num + 1 ∧ KeepsModule u v) ∧
      (fr.payload ≠ [] → u.sec.recover = some r → r.reqs.find? (fun q => q.1 == fr.tag.toNat && q.2.1 == fr.addr.toNat) = some q → r.link = k →
        r.len = none → fr.addr ≠ 0 →
        ∃ v x, exec (.image k fr t) s = .next v ∧ v.sec.recover = some x ∧ tget [] x.got q.2.1 = fr.payload ∧ x.link = k ∧
          KeepsModule u { v with sec := u.sec }))

/-- Fuses, the signature counter and the debug port: an advance of the fuses is due after 24 operating hours under a higher version, each
blow raises SVN or DBG_COUNT by one, a report is signed when its counter write has ended and its tree is ready, the bucket refills, a
challenge expires after 100 s, and the debug port opens on a scrubbed module (R454, R460, R464 to R466, R471, R472). Choices of the model in
it: log entries 14, 81 and 84. -/
def Obligations.SecurityEventsTakePlace : Prop :=
  ∀ (s : State) (a : Attest) (c : MUnit) (x : BitVec 384) (h e t : Nat),
    let u := s.tickTo t
    let k := u.sec
    let o := stageSize a.mbox - 4096
    let signed (v : State) (ready : Bool) : Prop := v.sec.attests = [] ∧ v.sec.treeReady = (decide (a.q % 1024 ≠ 0) && ready) ∧
      ctrGet v.pwr.ctr PC.attests.num = ctrGet u.pwr.ctr PC.attests.num + 1 ∧
      (∀ i, i < 512 → tget 0 (v.box a.mbox).staging (o + i) = (u.reportBody a).getD i 0) ∧
      (v.box a.mbox).cache.head? = some { seq := a.unit.seq, code := 0, tag := a.unit.tag, pay := natLe 4 o ++ natLe 4 3572 } ∧
      v.mem = u.mem ∧ v.stns = u.stns ∧ v.reqs = u.reqs
    (k.since = some h → k.boot = 7 → k.svn < k.runSvn → h + 1536 ≤ u.dep.hours → k.fuseTo = none → k.dbgStep = none → k.fuseBusy = none →
      exec (.fuseAdvanceDue t) s = .next { u with sec := { k with fuseTo := some k.runSvn, fuseBusy := if u.nv then some false else none } }) ∧
    (NoneHeld u → k.fuseBusy = some false → ∃ v, exec (.fuseBlowComplete t) s = .next v ∧ v.sec.svn = k.svn + 1 ∧ v.sec.dbg = k.dbg ∧
      v.mem = u.mem ∧ v.stns = u.stns ∧ v.reqs = u.reqs ∧ v.mbox = u.mbox) ∧
    (NoneHeld u → k.fuseBusy = some true → k.dbgStep = some (c, 1) → ∃ v, exec (.fuseBlowComplete t) s = .next v ∧ v.sec.svn = k.svn ∧
      v.sec.dbg = min 16 (k.dbg + 1) ∧ v.sec.keys = false ∧ v.sec.challenge = none ∧ v.sec.dbgStep = some (c, 3) ∧
      ∀ p, p < 16 → (u.parcel p).st = .active → (v.parcel p).st = .resetting) ∧
    (NoneHeld u → k.lmsBusy = true → k.attests = [a] → a.done = false → Tab.wf 0 (u.box a.mbox).staging = true →
      (a.q % 1024 ≠ 0 ∨ k.treeReady = true → ∃ v, exec (.lmsCounterWriteDone t) s = .next v ∧ signed v k.treeReady ∧ v.sec.kept = k.bucket ∧
        v.sec.lmsBusy = false) ∧
      (a.q % 1024 = 0 → k.treeReady = false → exec (.lmsCounterWriteDone t) s = .next
        { u with sec := { k with lmsBusy := false, kept := k.bucket, attests := [{ a with done := true }] } })) ∧
    (NoneHeld u → k.attests = [a] → a.done = true → Tab.wf 0 (u.box a.mbox).staging = true →
      ∃ v, exec (.lowerTreeComplete t) s = .next v ∧ signed v true) ∧
    (NoneHeld u → k.attests = [] → exec (.lowerTreeComplete t) s = .next { u with sec := { k with treeReady := true } }) ∧
    (k.refill ≠ u.dep.hours / 4 →
      exec (.bucketRefill t) s = .next { u with sec := { k with bucket := min 64 (k.bucket + (u.dep.hours / 4 - k.refill)), refill := u.dep.hours / 4 } }) ∧
    (k.challenge = some (x, e) → e + 1300000000 ≤ u.aon → exec (.challengeExpire t) s = .next { u with sec := { k with challenge := none } }) ∧
    (NoneHeld u → k.dbgStep = some (c, 3) → u.anyResetting = false → u.nv = true →
      ∃ v, exec (.debugPortOpen t) s = .next v ∧ v.sec.open' = true ∧ v.sec.dbgStep = none ∧ (∀ n, (v.stn n).scratch = []) ∧
        (∀ a, a < 20 * 2 ^ 38 → v.mem.get a = 0) ∧ (∀ a, 20 * 2 ^ 38 ≤ a → v.mem.get a = u.mem.get a) ∧
        (v.box 16).cache.head? = some { seq := c.seq, code := 0, tag := c.tag, pay := [] } ∧ v.mem.pages = u.mem.pages ∧ v.reqs = u.reqs)

/-- Configurations and the writes they wait for: an apply that changes no Parcel switches at once, one that finds no quiescent point within
2 ms ends with 0x07C0, an operation of the configuration flash is followed by the next of its job, and an operator key is in its slot once
the key store has been written (R446 to R448, R454, R462). Choices of the model in it: log entry 83. -/
def Obligations.ConfigurationsSwitch : Prop :=
  ∀ (s : State) (a : Apply) (j : FlashJob) (c : MUnit) (w : KeySlot) (role m t : Nat),
    let u := s.tickTo t
    let g := u.plan.target a
    let answered (v : State) (m : Nat) (st : Status) : Prop :=
      (v.box m).cache.head? = some { seq := c.seq, code := st, tag := c.tag, pay := [] } ∧ ((u.box m).wait = some c → (v.box m).wait = none)
    (NoneHeld u → u.plan.apply = some a → a.unit = some c → u.anyResetting = false → u.trv.cl.event = none → u.trv.cl.running = false →
      (∀ p, p < 16 → (u.parcel p).st = .active → u.changes g.1 g.2 p = false) →
      ∃ v, exec (.quiescentSwitch t) s = .next v ∧ v.plan.apply = none ∧ v.plan.force = g.1 ∧ v.plan.ovl = g.2 ∧ v.plan.mode = a.mode ∧
        answered v 16 0 ∧ v.mem = u.mem ∧ v.reqs = u.reqs ∧ v.trk = u.trk) ∧
    (NoneHeld u → u.plan.apply = some a → a.unit = some c → a.resets = false → a.from' + 26000 ≤ u.aon →
      ∃ v, exec (.applyQuiesceTimeout t) s = .next v ∧ v.plan.apply = none ∧ v.plan.force = u.plan.force ∧ v.plan.mode = u.plan.mode ∧
        answered v 16 0x07C0#16 ∧ v.mem = u.mem ∧ v.stns = u.stns ∧ v.trk = u.trk ∧ v.reqs = u.reqs ∧ v.parcels = u.parcels) ∧
    (NoneHeld u → u.sec.flash = [j] → j.busy = true → 2 < j.left → u.nv = true →
      ∃ v, exec (.configFlashWriteDone t) s = .next v ∧ v.sec.flash = [{ j with left := j.left - 1 }] ∧ v.plan = u.plan ∧ v.mem = u.mem ∧
        v.stns = u.stns ∧ v.mbox = u.mbox) ∧
    (NoneHeld u → u.sec.keyQ = [(.slot role w, m, some c)] → u.sec.keyBusy = true →
      ∃ v, exec (.keyStoreWriteDone t) s = .next v ∧ tget .empty v.sec.slots role = w ∧
        (∀ x, x ≠ role → tget .empty v.sec.slots x = tget .empty u.sec.slots x) ∧ v.sec.keyQ = [] ∧ v.sec.keyBusy = false ∧ answered v m 0 ∧
        v.mem = u.mem ∧ v.stns = u.stns ∧ v.reqs = u.reqs)

/-- The TAP of a powered module: IDCODE shifts out 0x1F40_026B, BYPASS and SAMPLE/PRELOAD may always be used, the instructions that drive
pins only while the port is open or RESET_N is low, the die chains only while it is open, and one that may not be used acts as BYPASS
(R470). -/
def Obligations.TheTestPortSelects : Prop :=
  ∀ (s : State) (k : BitVec 4) (b : Bool), s.pwr.powered = true →
    let drives := s.sec.open' = true ∨ s.pwr.resetN = false
    let sel (c : Byte) : State := { s with sec := { s.sec with tap := c } }
    exec .bypass s = .next (sel 0xFF#8) ∧ exec .samplePreload s = .next (sel 0x02#8) ∧ exec (.testLogicReset b) s = .next (sel 0x01#8) ∧
    (∃ bits, bits.length = 32 ∧ (bits.zipIdx.map fun x => if x.1 then 2 ^ x.2 else 0).sum = 0x1F40026B ∧
      exec .idcode s = .next { sel 0x01#8 with out := .tap bits :: s.out }) ∧
    (drives → exec .extest s = .next (sel 0x03#8) ∧ exec .clamp s = .next (sel 0x04#8) ∧ exec .highz s = .next (sel 0x05#8)) ∧
    (¬ drives → exec .extest s = .next (sel 0xFF#8) ∧ exec .clamp s = .next (sel 0xFF#8) ∧ exec .highz s = .next (sel 0xFF#8)) ∧
    (s.sec.open' = true → exec (.dieDebugChain k) s = .next (sel (0x10#8 + k.setWidth 8))) ∧
    (s.sec.open' = false → exec (.dieDebugChain k) s = .next (sel 0xFF#8))

/-! ### Clocks, power and dependability -/

/-- The divider and the trim: the largest limit is in force, a switch stops every Running Station and then puts the new divider into force,
which is computed anew, and a ramp ends at its target. The switch cuts the windows of the issue duty short, and they begin anew after it. A
limit that changes while a switch runs leaves the switch to complete, and one that asks for the divider already in force causes none: so for
every change that a limit can make, which `State.limit` is, and for the rows that make one (R249, R250, R479 to R482). Choices of the model
in it: log entries 75, 76 and 137. -/
def Obligations.TheDividerSwitches : Prop :=
  ∀ (s : State) (o n x t : Nat) (ctr : BitVec 12),
    let c := s.clk
    let after : State := { s with clk := { c with switch := none, div := n, duty := [] }, pwr := { s.pwr with ctr := ctrAdd s.pwr.ctr PC.divSwitches.num 1 } }
    (5 ≤ s.divLimit ∧ c.margin ≤ s.divLimit ∧ c.proj ≤ s.divLimit ∧ c.guard ≤ s.divLimit ∧ (c.supply = true ∨ s.boostForbidden = true → 6 ≤ s.divLimit) ∧
      [c.margin, c.proj, c.guard, 5, 6].contains s.divLimit = true) ∧
    (c.switch = some (o, n, false) → ∃ v, exec (.dividerSwitchStop ctr) s = .next v ∧
      v = { s with clk := { c with switch := some (o, n, true), duty := v.clk.duty }, stns := v.stns } ∧
      (∀ f, f < 4 → tget 0 v.clk.duty f = facetCtr ctr f) ∧
      ∀ k, v.stn k = if k < 64 ∧ s.spow k = .running then
        { s.stn k with core := ((s.core k).count .frzDivsw).countDuty (facetCtr ctr (k / 16) - s.dutyOf (k / 16)) } else s.stn k) ∧
    (c.switch = some (o, n, true) →
      (s.divLimit = n → c.trimNext = none → exec .dividerSwitchResume s = .next after) ∧
      (s.divLimit = n → c.trimNext = some x → x ≠ c.trim → exec .dividerSwitchResume s =
        .next { after with clk := { after.clk with trimNext := none, ramp := some x } }) ∧
      (s.divLimit ≠ n → c.ramp = none → ∃ v, exec .dividerSwitchResume s = .next v ∧
        v.clk = { after.clk with switch := some (n, s.divLimit, false) } ∧ OnlyRecords { s with clk := v.clk } v)) ∧
    (∀ cause b (f : Clk → Clk), ((f c).switch = some (o, n, b) ∨ State.divLimit { s with clk := { f c with cause := cause } } = (f c).div) →
      s.limit cause f = { s with clk := { f c with cause := cause } }) ∧
    (c.ramp = some x → ∃ v, exec .trimRampComplete s = .next v ∧ Retargets s v { c with trim := x, ramp := none }) ∧
    (let u := s.tickTo t
     let m := u.pwr.window (u.aon / 13000000 - 1)
     ∀ b, u.clk.switch = some (o, n, b) → u.clk.window.getD 0 < u.aon / 13000000 → 2200 * m.2 < m.1 → u.clk.proj < 8 →
      ∃ v, exec (.projectionWindow true t) s = .next v ∧ v.clk.proj = u.clk.proj + 1 ∧ v.clk.switch = some (o, n, b) ∧ v.clk.div = u.clk.div) ∧
    (let u := s.tickTo t
     let m := u.pwr.window (u.aon / 13000000 - 1)
     u.clk.switch = none → u.divLimit = u.clk.div → u.clk.window.getD 0 < u.aon / 13000000 → 2200 * m.2 < m.1 → u.clk.proj < u.clk.div →
      u.clk.proj < 8 → ∃ v, exec (.projectionWindow true t) s = .next v ∧ v.clk.proj = u.clk.proj + 1 ∧ v.clk.switch = none ∧ v.clk.div = u.clk.div)

/-- Limits and sleep: the mean of the newest window of 1 s that has ended moves the projection once (windows begin at multiples of
13,000,000 AON ticks, and one without samples changes nothing: the model's choices, log entry 76), the guard rises on too high a mean of
power and falls after 10 quiet ms, a Station that is Ready for 100 µs parks, and a wake ends Running with work and Ready without (R486,
R487, R489). Choices of the model in it: log entries 2, 76 and 127. -/
def Obligations.PowerIsKept : Prop :=
  ∀ (s : State) (n : Stn) (watts : Nat) (vin : BitVec 16) (lower : Bool) (q : Nat) (w : SPow) (t : Nat),
    let u := s.tickTo t
    let c := u.clk
    let l := (watts :: u.pwr.samples).take 1000
    let k := u.aon / 13000000
    let m := u.pwr.window (k - 1)
    let high := meanOver l 1000 2300 = true ∨ meanOver l 100 2400 = true
    (c.window.getD 0 < k →
      let c' := { c with window := some k }
      (2200 * m.2 < m.1 → c.proj < 8 → ∃ v, exec (.projectionWindow lower t) s = .next v ∧ Retargets u v { c' with proj := c.proj + 1, cause := 3 }) ∧
      (0 < m.2 → m.1 ≤ 2060 * m.2 → c.margin < c.proj → ∃ v, exec (.projectionWindow true t) s = .next v ∧
        Retargets u v { c' with proj := c.proj - 1, cause := 3 }) ∧
      (m.1 ≤ 2200 * m.2 → (2060 * m.2 < m.1 ∨ c.proj ≤ c.margin ∨ lower = false ∨ m.2 = 0) →
        exec (.projectionWindow lower t) s = .next { u with clk := c' })) ∧
    (k ≤ c.window.getD 0 → exec (.projectionWindow lower t) s = .next u) ∧
    (u.pwr.powered = true → ∃ v, exec (.inputPowerSample watts vin t) s = .next v ∧ v.pwr.samples = l ∧ v.pwr.vin = vin ∧
      v.clk.guard = (if (∀ r, c.raised = some r → r + 130000 ≤ u.aon) ∧ c.guard < 8 ∧ high then c.guard + 1 else c.guard) ∧
      v.clk.margin = c.margin ∧ v.clk.proj = c.proj ∧ v.clk.div = c.div ∧
      (u.aon / 13000 = u.pwr.msWin → v.pwr.msSum = u.pwr.msSum + watts ∧ v.pwr.msCnt = u.pwr.msCnt + 1 ∧ v.pwr.msWin = u.pwr.msWin) ∧
      ((∀ x ∈ u.pwr.secs.drop 1, x.1 ≠ k) → v.pwr.window k = ((u.pwr.window k).1 + watts, (u.pwr.window k).2 + 1)) ∧
      (u.aon / 13000 ≠ u.pwr.msWin → v.pwr.msSum = watts ∧ v.pwr.msCnt = 1 ∧ v.pwr.msWin = u.aon / 13000) ∧
      v = { u with clk := v.clk, cairn := v.cairn, pwr := { u.pwr with samples := l, vin := vin, ctr := v.pwr.ctr, msWin := v.pwr.msWin,
                                                                         msSum := v.pwr.msSum, msCnt := v.pwr.msCnt, secs := v.pwr.secs } }) ∧
    (c.quiet = some q → q + 130000 ≤ u.aon → 5 < c.guard → ∃ v, exec (.guardLower t) s = .next v ∧
      Retargets u v { c with guard := c.guard - 1, quiet := some u.aon, cause := 4 }) ∧
    (u.spow n = .ready → tget 0 u.pwr.since n + 1300 ≤ u.aon → (u.stn n).mode = .idle → u.hasWork n = false →
      ∃ v, exec (.stationReadyTimeout n t) s = .next v ∧ v.spow n = .parked ∧ tget 0 v.pwr.since n = u.aon ∧
        (∀ k, k ≠ n.val → v.spow k = u.spow k) ∧ v = { u with pwr := { u.pwr with stn := v.pwr.stn, since := v.pwr.since } }) ∧
    (u.pwr.waking.find? (fun x => x.1 == n.val) = some (n.val, w) → u.pwr.supply ≠ .abort →
      ∃ v, exec (.stationWakeComplete n t) s = .next v ∧ v.spow n = (if u.hasWork n then .running else .ready) ∧
        (w = .off → (v.stn n).scratch = []) ∧ (w ≠ .off → v.stn n = u.stn n) ∧ (∀ k, k ≠ n.val → v.spow k = u.spow k ∧ v.stn k = u.stn k) ∧
        v = { u with stns := v.stns, pwr := v.pwr })

/-- The supply states: SAG below 40.5 V and NORMAL again above 41.5 V with the writes that waited, no boost below 40.0 V, and ABORT below
38.0 V and its end (R493 to R497). Choices of the model in it: log entry 74. -/
def Obligations.SupplyStatesChange : Prop :=
  ∀ (s : State) (vin : BitVec 16) (t : Nat),
    let u := s.tickTo t
    let c := u.clk
    let more (v : State) (k : PC) : Prop := ctrGet v.pwr.ctr k.num = ctrGet u.pwr.ctr k.num + 1
    let into (x : Supply) : State := { u with pwr := { u.pwr with supply := x, vin := vin } }
    u.pwr.powered = true →
    (u.pwr.supply = .normal → vin.toNat < 4050 → ∃ v, exec (.sagEnter vin t) s = .next v ∧ OnlyRecords (into .sag) v ∧ more v .sagEvents) ∧
    (u.pwr.supply = .sag → 4150 < vin.toNat → ∃ v, exec (.sagEnd vin t) s = .next v ∧ v.pwr.supply = .normal ∧ v.pwr.vin = vin ∧ v.nv = true ∧
      v.clk.supply = false ∧ (∀ j r, u.sec.flash = j :: r → v.sec.flash = { j with busy := true } :: r) ∧ (u.sec.keyQ ≠ [] → v.sec.keyBusy = true) ∧
      v.mem.cells = u.mem.cells ∧ v.stns = u.stns ∧ v.reqs = u.reqs ∧ v.trk = u.trk) ∧
    (u.pwr.supply = .sag → vin.toNat < 4000 → ∃ v, exec (.boostWithheld vin t) s = .next v ∧
      Retargets (into .sag) v { c with supply := true, cause := 2 }) ∧
    (NothingWaits u → u.pwr.supply ≠ .abort → vin.toNat < 3800 → ∃ v, exec (.abortEnter vin t) s = .next v ∧ v.pwr.supply = .abort ∧
      v.pwr.vin = vin ∧ v.clk.supply = true ∧ v.clk.div = c.div ∧
      (∀ r, (u.req r).live = true → (v.req r).st = .ending ∧ (v.req r).endSt = 0x0420#16) ∧
      (∀ n, n < 64 → (u.stn n).busy = true → (v.stn n).mode = .scrub) ∧
      (∀ n, n < 64 → (u.stn n).mode = .idle → u.spow n = .ready → v.spow n = .parked)) ∧
    (u.pwr.supply = .abort → 4000 ≤ vin.toNat →
      (4150 < vin.toNat → ∃ v, exec (.abortExit vin t) s = .next v ∧ v.pwr.supply = .normal ∧ v.pwr.vin = vin ∧ v.clk.supply = false ∧
        v.mem.cells = u.mem.cells ∧ v.stns = u.stns ∧ v.reqs = u.reqs) ∧
      (vin.toNat ≤ 4150 → ∃ v, exec (.abortExit vin t) s = .next v ∧ v.pwr.supply = .sag ∧ v.pwr.vin = vin ∧ more v .sagEvents ∧
        v.mem = u.mem ∧ v.stns = u.stns ∧ v.reqs = u.reqs))

/-- What resets the module or shuts it down: the input out of range, a clock or rail that fails, and two pairs of the Bezel of which neither
can take over; a first pair that disagrees gives its requests up (R22, R485, R498, R507, R510). Choices of the model in it: log entries 74,
77, 87 and 96. -/
def Obligations.FaultsResetTheModule : Prop :=
  ∀ (s : State) (vin : BitVec 16) (cause : BitVec 3) (rail : BitVec 4) (k : Fin 4) (t : Nat),
    let u := s.tickTo t
    u.pwr.powered = true →
    ((vin.toNat < 3500 ∨ 5000 < vin.toNat) → ∃ v, exec (.shutdown vin t) s = .next v ∧ Cleared u v ∧ v.pwr.powered = false ∧
      v.pwr.supply = .shut ∧ v.clk.pll = false ∧ v.dep.hours = u.dep.hours) ∧
    (cause ≠ 0 → ∃ v, exec (.clockFault cause t) s = .next v ∧ Cleared u v ∧ v.clk.fault = u.clk.fault ||| cause.setWidth 32 ∧
      (cause.getLsbD 1 = true → v.clk.pll = false) ∧ v.pwr.powered = true ∧ v.dep.later.map (·.1) = u.dep.later.map (·.1) ++ [0x0012]) ∧
    (∃ v, exec (.railFault rail t) s = .next v ∧ Cleared u v ∧ v.dep.rail.getLsbD rail.toNat = true ∧
      (∀ i, i ≠ rail.toNat → v.dep.rail.getLsbD i = u.dep.rail.getLsbD i) ∧ v.dep.later.map (·.1) = u.dep.later.map (·.1) ++ [0x0012]) ∧
    (u.dep.pairs.getLsbD k = false →
      (u.dep.pairs.getLsbD ((k.val + 2) % 4) = true → ∃ v, exec (.lockstepDisagree k t) s = .next v ∧ Cleared u v ∧
        v.dep.later.map (fun x => (x.1, x.2.1)) = u.dep.later.map (fun x => (x.1, x.2.1)) ++ [(0x0011, 0x03E1#16)]) ∧
      (u.dep.pairs.getLsbD ((k.val + 2) % 4) = false → NothingWaits u → ∃ v, exec (.lockstepDisagree k t) s = .next v ∧
        v.dep.pairs = u.dep.pairs ||| 1#4 <<< k.val ∧
        (k.val % 2 = 0 → ∀ r, (u.req r).live = true → (u.req r).remote = none → (u.req r).port = k.val / 2 →
          (v.req r).st = .ending ∧ (v.req r).endSt = 0x03E1#16) ∧
        (k.val % 2 = 1 → v.reqs = u.reqs ∧ v.mem = u.mem ∧ v.stns = u.stns)))

/-- Dies, margins and the Cairn: a die's reading puts its band into force, a maintenance window opens every 24 hours, takes the Stations'
readings and ends with a new margin, hours are counted, and records are closed and written (R511 to R517, R520, R522, R523). Choices of the
model in it: log entries 72, 85, 149 and 150. -/
def Obligations.DependabilityIsKept : Prop :=
  ∀ (s : State) (d : Fin 6) (sens : List (Option (BitVec 10))) (n : Stn) (slack ro : List Int) (o : Nat) (done : List Nat) (x : Nat × Nat) (t : Nat),
    let u := s.tickTo t
    let p := u.dep
    let vs := sens.filterMap id
    let v0 := if vs = [] then 440 else (vs.map (·.toNat)).foldl max 0
    let b := nextBand (u.die d).band v0
    let only (v : State) : Prop := v = { u with dep := v.dep, cairn := v.cairn, pwr := v.pwr, clk := v.clk }
    (∃ v, exec (.dieTempReading d sens t) s = .next v ∧ (v.die d).temp = v0 ∧ (v.die d).band = b ∧ (∀ e, e ≠ d.val → v.die e = u.die e) ∧
      ((d < 4 ∧ b = 2 ∧ (u.die d).band ≠ 2) → ∀ k, k < 16 → (u.stn (16 * d + k)).busy = true → (v.stn (16 * d + k)).mode = .scrub) ∧
      ((u.die d).band = b → v.stns = u.stns ∧ v.reqs = u.reqs ∧ v.mem.cells = u.mem.cells) ∧
      (d < 4 → u.mem.round = [] → 1 ≤ b → 1 < u.dutyOf d → v.dutyOf d = u.dutyOf d - 1)) ∧
    (u.sec.boot = 7 → p.hours ≠ 0 → p.hours % 1536 = 0 → p.window.map (·.1) ≠ some p.hours →
      exec (.maintenanceWindowOpen t) s = .next { u with dep := { p with window := some (p.hours, []) } }) ∧
    (p.window = some (o, done) →
      (p.hours < o + 64 → done.contains n.val = false → (u.stn n).mode = .idle → u.testWaits n = false → u.spow n ≠ .off →
        u.isWithdrawn n = false →
        ∃ v, exec (.benchmarkRead n slack ro t) s = .next v ∧ only { v with stns := u.stns } ∧
          (∀ k, v.stn k = if k = n.val then { u.stn n with hold := u.aon + 260 } else u.stn k) ∧ tget (0, 0, []) v.dep.slack n = (u.clk.div, u.clk.trim, slack) ∧
          v.dep.window = some (o, n.val :: done) ∧ v.spow n = (if u.spow n = .parked then .ready else u.spow n) ∧ v.clk = u.clk) ∧
      (o + 64 ≤ p.hours → planMargin u.clk.margin ((u.readings done).map (·.2)) = some x →
        ∃ v, exec (.marginReplan t) s = .next v ∧ only v ∧ v.clk.margin = x.1 ∧ v.dep.window = none ∧ v.clk.div = u.clk.div ∧
          (v.clk.trim = x.2 ∨ v.clk.ramp = some x.2 ∨ v.clk.trimNext = some x.2)) ∧
      (o + 64 ≤ p.hours → planMargin u.clk.margin ((u.readings done).map (·.2)) = none →
        ∃ v, exec (.marginReplan t) s = .next v ∧ v.dep.window = none ∧
          ∀ r ∈ u.readings done, r.1 < 64 → readingOk r.2 8 60 500 = false → v.isWithdrawn r.1 = true)) ∧
    (u.pwr.powered = true → p.hours < 0xFFFFFFFF → ∃ v, exec (.operatingHoursTick t) s = .next v ∧
      OnlyRecords { u with dep := { p with hours := p.hours + 1 } } v) ∧
    (∃ v, exec (.cairnRecordClose t) s = .next v ∧ v = { u with cairn := { u.cairn with buf := v.cairn.buf } } ∧
      v.cairn.buf = u.cairn.buf.map fun r => { r with closed := r.closed || decide (r.kind = 3 ∧ r.opened + 13000000 ≤ u.aon) }) ∧
    (u.cairn.period + 1536 ≤ p.hours → ∃ v, exec (.cairnPeriodEnd t) s = .next v ∧
      v = { u with cairn := { u.cairn with buf := v.cairn.buf, period := p.hours } } ∧
      v.cairn.buf = u.cairn.buf.map fun r => { r with closed := r.closed || decide (r.kind = 1 ∨ r.kind = 2) }) ∧
    (u.sec.boot = 7 → u.nv = true → u.sec.flash = [] → u.cairn.buf.any (·.closed) = true → u.cairn.next % 2 = 0 →
      exec (.cairnFlush t) s = .next { u with sec := { u.sec with flash :=
        [{ why := .cairn (min 2 (u.cairn.buf.countP (·.closed))), left := if u.cairn.next % 32 = 0 then 2 else 1, busy := true,
           mbox := 16, unit := none }] } })

/-- BUCKET lies in [0, 64]: a report spends one unit, one is added for every 4 units of operating hours, up to 64, and with no unit or no
signature number left ATTEST is refused (R466). Choices of the model in it: log entry 81. -/
def Obligations.TheBucketLimitsReports : Prop :=
  ∀ (s : State) (m : Nat) (c : MUnit) (t : Nat),
    let u := s.tickTo t
    let k := u.sec
    let refused (st : Status) : Prop := ∃ v, exec (.attest c t) s = .next v ∧ Answered v m c st [] ∧ v.sec = { k with last := st } ∧
      v.mem = u.mem ∧ v.stns = u.stns ∧ v.reqs = u.reqs ∧ v.trk = u.trk
    (k.refill ≠ u.dep.hours / 4 →
      exec (.bucketRefill t) s = .next { u with sec := { k with bucket := min 64 (k.bucket + (u.dep.hours / 4 - k.refill)), refill := u.dep.hours / 4 } }) ∧
    (k.refill = u.dep.hours / 4 → exec (.bucketRefill t) s = .next u) ∧
    (MayRun u m c 0x00C1 → u.nv = true →
      (k.bucket = 0 → refused 0x02D1#16) ∧
      (k.bucket ≠ 0 → k.nextQ = 1048576 → refused 0x0665#16) ∧
      (k.bucket ≠ 0 → k.nextQ < 1048576 → ∃ v, exec (.attest c t) s = .next v ∧ Executing v m c ∧ v.sec.bucket = k.bucket - 1 ∧
        v.sec.nextQ = k.nextQ + 1 ∧ (k.bucket ≤ 64 → v.sec.bucket ≤ 64) ∧ v.mem = u.mem ∧ v.stns = u.stns ∧ v.reqs = u.reqs))

/-! ### The front panel and the registers -/

/-- PWR_CAGE_FAULT shows the cages that have been switched off for their current, S0 and S1 in bits 18 and 19 and Ck in bit k; it is 0 after
reset, and writing 1 to a bit clears it and gives the cage its power again (R537, R539, R540). A cage powers a module 10 ms after it is
detected, and a serving port goes down with its cage or its link. Choices of the model in it: log entry 86. -/
def Obligations.CagesAreSwitched : Prop :=
  ∀ (s : State) (c : Fin 20) (p : Fin 2) (w : BitVec 32) (since t : Nat),
    let u := s.tickTo t
    let x := u.panel
    let bit (c : Nat) : Nat := if c < 2 then 18 + c else c - 2
    let panel (v : State) : Prop := v = { u with panel := v.panel }
    let dark (v : State) : Prop := v.panel.power.getLsbD c = false ∧ (∀ d, d ≠ c.val → v.panel.power.getLsbD d = x.power.getLsbD d) ∧
      v.panel.link0 = (x.link0 && decide (c.val ≠ 0)) ∧ v.panel.link1 = (x.link1 && decide (c.val ≠ 1)) ∧ panel v
    (∃ y, s.regValue .pwrCageFault 0 = some y ∧ ∀ k, y.testBit k = (decide (k < 20) && s.panel.fault.getLsbD k)) ∧
    State.reset.regValue .pwrCageFault 0 = some 0 ∧
    (x.power.getLsbD c = true → ∃ v, exec (.cageOvercurrent c t) s = .next v ∧ dark v ∧ v.panel.present = x.present ∧
      ∀ k, v.panel.fault.getLsbD k = (x.fault.getLsbD k || decide (k = bit c))) ∧
    (∃ v, exec (.pwrCageFaultWrite w t) s = .next v ∧ panel v ∧ Clears x.fault v.panel.fault 0xFFFFF#32 w ∧ v.panel.present = x.present ∧
      v.panel.link0 = x.link0 ∧ v.panel.link1 = x.link1 ∧
      ∀ d, d < 20 → v.panel.power.getLsbD d = (x.power.getLsbD d ||
        (w.getLsbD (bit d) && x.fault.getLsbD (bit d) && (tkeys x.present).contains d))) ∧
    ((tkeys x.present).contains c.val = false →
      exec (.cageModuleInserted c t) s = .next { u with panel := { x with present := fput x.present c u.aon } }) ∧
    (∃ v, exec (.cageModuleRemoved c t) s = .next v ∧ dark v ∧ (tkeys v.panel.present).contains c.val = false ∧ v.panel.fault = x.fault) ∧
    (x.present.find? (fun y => y.1 == c.val) = some (c.val, since) → u.pwr.powered = true → since + 130000 ≤ u.aon →
      (x.fault.getLsbD (bit c) = false → ∃ v, exec (.cagePowerOn c t) s = .next v ∧
        v = { u with panel := { x with power := v.panel.power } } ∧ ∀ d, d < 20 → v.panel.power.getLsbD d = (x.power.getLsbD d || decide (d = c.val))) ∧
      (x.fault.getLsbD (bit c) = true → exec (.cagePowerOn c t) s = .next u)) ∧
    (∃ v, exec (.servingLinkDown p t) s = .next v ∧ v.linkUp p = false ∧ v.linkUp (1 - p.val) = u.linkUp (1 - p.val) ∧ panel v) ∧
    (u.pwr.powered = true → u.pwr.silent = false → x.fault.getLsbD (bit p) = false →
      ∃ v, exec (.servingLinkUp p t) s = .next v ∧ v.linkUp p = true ∧ v.linkUp (1 - p.val) = u.linkUp (1 - p.val) ∧ panel v)

/-- A write of a register clears the flags to which it writes 1, sets the two bits of STN_CHK_CTL, and changes nothing that is read only;
and TPERT_CLEAR_ALL clears ENABLE of all 16 entries (R7, R70, R102, R138, R175, R215, R261, R330, R365, R401, R402, R436, R499, R526). -/
def Obligations.RegistersAreWritten : Prop :=
  ∀ (s : State) (ix : Nat) (v : BitVec 64) (t : Nat),
    let w : BitVec 32 := v.setWidth 32
    let c := s.core ix
    let writes (r : RegId) (x : State) : Prop := exec (.registerWrite r ix v) s = .next x
    let core (d : StCore) : State := s.setStn ix { s.stn ix with core := d }
    (ix < 64 →
      (∃ x, writes .stnFmtStatus (core { c with fmtStatus := x }) ∧ Clears c.fmtStatus x 0x3F#32 w) ∧
      (∃ x, writes .stnArrStatus (core { c with arrStatus := x }) ∧ Clears c.arrStatus x 0x40#32 w) ∧
      (∃ x, writes .stnBspStatus (core { c with bspStatus := x }) ∧ Clears c.bspStatus x 0x1#32 w) ∧
      (∃ x, writes .accStatus (core { c with accStatus := x }) ∧ Clears c.accStatus x 0x3#32 w) ∧
      (∃ x, writes .recStatus (core { c with recStatus := x }) ∧ Clears c.recStatus x 0xB#32 w) ∧
      (∃ x, writes .stnStatus (core { c with stnStatus := x }) ∧ Clears c.stnStatus x 0xE#32 w) ∧
      (∃ x, writes .stnChkCtl (core { c with chkCtl := x }) ∧ ∀ k, k < 32 → x.getLsbD k = (decide (k < 2) && v.getLsbD k))) ∧
    (ix < 36 → ∃ x, writes .stnMemStackStatus (s.modStack ix fun y => { y with status := x }) ∧ Clears (s.stack ix).status x 0x7#32 w) ∧
    (ix < 4 → ∃ x, writes .stnGateStatus (s.modGate ix fun y => { y with status := x }) ∧ Clears (s.gate ix).status x 0x2#32 w) ∧
    (ix < 18 → ∃ x, writes .trvLinkStatus (s.modLink ix fun y => { y with status := x }) ∧ Clears (s.tlink ix).status x 0x70#64 v) ∧
    (ix < 17 → ∃ x, writes .mbxStatus (s.modBox ix fun y => { y with status := x }) ∧ Clears (s.box ix).status x 0x20#32 w) ∧
    (ix = 0 →
      (∃ x, writes .trvPlanStatus { s with trv := { s.trv with status := x } } ∧ Clears s.trv.status x 0x4#32 w) ∧
      (∃ x, writes .clkFaultCause { s with clk := { s.clk with fault := x } } ∧ Clears s.clk.fault x 0x7#32 w) ∧
      (∃ x, writes .pwrRailFault { s with dep := { s.dep with rail := x } } ∧ Clears s.dep.rail x 0xFFFF#32 w) ∧
      writes .crnStatus { s with cairn := { s.cairn with lost := s.cairn.lost && !v.getLsbD 1 } }) ∧
    (∀ r ∈ [RegId.stnConflictInfo, .stnCounter 0], ∃ x, writes r x ∧ (∀ n, x.stn n = s.stn n) ∧ x = { s with stns := x.stns }) ∧
    (∀ r ∈ [RegId.stnTrkStatus, .mbxParcelStatus, .mbxPlanStatus, .secStatus, .secLmsStatus, .clkStatus, .pwrStatus, .pwrStnStateLo, .pwrStnStateHi,
      .crnTime, .depStatus], writes r s) ∧
    (let u := s.tickTo t
     ∃ x, exec (.tpertClearAll t) s = .next x ∧ x = { u with dep := { u.dep with tperts := x.dep.tperts }, cairn := x.cairn, pwr := { u.pwr with ctr := x.pwr.ctr } } ∧
      (∀ e, e < 16 → (x.tpert e).action.getLsbD 0 = false ∧ (x.tpert e).action ||| 1#64 = (u.tpert e).action ||| 1#64 ∧
        (x.tpert e).target = (u.tpert e).target ∧ (x.tpert e).addr = (u.tpert e).addr ∧ (x.tpert e).hits = (u.tpert e).hits) ∧
      ∀ e, 16 ≤ e → x.tpert e = u.tpert e)

/-! ### The machine -/

/-- After reset the registers read as the spec's tables say, no command waits, memory lists nothing, and no power has come (R70 to R540, the
Reset column; the spec gives SVN, BUCKET and NEXT_Q no value at reset, and the model has a module as provisioned, log entry 10). -/
def Obligations.ResetIsAsSpecified : Prop :=
  let r (x : RegId) (ix : Nat) : Option Nat := State.reset.regValue x ix
  (∀ n : Fin 64, r .stnStatus n = some 0x1C1 ∧ r .stnChkCtl n = some 3 ∧ r .stnFmtStatus n = some 0 ∧ r .stnArrStatus n = some 0 ∧
    r .stnBspStatus n = some 0 ∧ r .accStatus n = some 0 ∧ r .recStatus n = some 0 ∧ r .stnConflictInfo n = some 0) ∧
  (∀ k : Fin 36, r .stnMemStackStatus k = some 0x70010) ∧ (∀ k : Fin 18, r .trvLinkStatus k = some 0) ∧ (∀ m : Fin 17, r .mbxStatus m = some 0) ∧
  (∀ p : Fin 16, r .mbxParcelStatus p = some 0) ∧ (∀ f : Fin 4, r .stnTrkStatus f = some 0 ∧ r .stnGateStatus f = some 0) ∧
  r .trvPlanStatus 0 = some 0 ∧ r .mbxPlanStatus 0 = some 5 ∧ r .clkStatus 0 = some 0x6665003C ∧ r .clkFaultCause 0 = some 0 ∧
  r .pwrStatus 0 = some 4 ∧ r .pwrStnStateLo 0 = some 0 ∧ r .pwrStnStateHi 0 = some 0 ∧ r .pwrRailFault 0 = some 0 ∧ r .pwrCageFault 0 = some 0 ∧
  r .crnStatus 0 = some 0 ∧ r .depStatus 0 = some 0 ∧ (r .secStatus 0).map (fun x => x / 128) = some 0x90 ∧
  State.reset.pending = [] ∧ State.reset.mem.wf = true ∧ State.reset.mem.cells = [] ∧ State.reset.pwr.powered = false

/-- A step takes the command at the front of the queue and runs it on everything else; on an empty queue the block idles for one AON tick
(the model's choice, log entry 3). -/
def Obligations.AStepRunsTheFirstCommand : Prop :=
  ∀ (s : State) (c : Instr) (r : List Instr),
    step { s with pending := c :: r } = exec c { s with pending := r } ∧
    step { s with pending := [] } = .next (State.tickTo { s with pending := [] } (s.aon + 1))

/-- Memory keeps its canonical form: addresses strictly rising and no entry equal to what an unlisted address reads as, after every step,
from every state whose memory has it. -/
def Obligations.MemoryStaysCanonical : Prop :=
 ∀ s t : State, s.mem.wf = true → step s = .next t → t.mem.wf = true

/-- No command touches the queue: a step that completes leaves exactly the commands behind the first, in their order. -/
def Obligations.OnlyTheFirstCommandLeaves : Prop :=
 ∀ s t : State, step s = .next t → t.pending = s.pending.tail
end

