-- ==== Sys2Proof/Laws/Tables.lean ====
section
/-!
SUPPORT. Laws of the tables by key: reading after writing, and the canonical form that `mset` keeps.
-/

namespace Sys2Proof.Machine

@[simp] theorem tget_nil {α : Type} (d : α) (k : Nat) : tget d [] k = d := rfl

@[simp] theorem tget_fput_self {α : Type} (d : α) (t : Tab α) (k : Nat) (v : α) : tget d (fput t k v) k = v := by
  induction t with
  | nil => simp [fput, tget]
  | cons p r ih =>
    obtain ⟨j, w⟩ := p
    simp only [fput]
    split
    · simp [tget]
    · split
      · simp [tget]
      · simp_all [tget]

theorem tget_fput_ne {α : Type} (d : α) (t : Tab α) {k j : Nat} (v : α) (h : j ≠ k) :
    tget d (fput t k v) j = tget d t j := by
  induction t with
  | nil => simp [fput, tget, h]
  | cons p r ih =>
    obtain ⟨i, w⟩ := p
    simp only [fput]
    split
    · rename_i e
      subst e
      simp [tget, h]
    · split
      · simp [tget, h]
      · simp only [tget, ih]

@[simp] theorem fput_fput {α : Type} (t : Tab α) (k : Nat) (v w : α) : fput (fput t k v) k w = fput t k w := by
  induction t with
  | nil => simp [fput]
  | cons p r ih =>
    obtain ⟨i, x⟩ := p
    by_cases h : k = i
    · simp [fput, h]
    · by_cases h' : k < i
      · simp [fput, h, h']
      · simp [fput, h, h', ih]

@[simp] theorem tget_mset_self {α : Type} [DecidableEq α] (d : α) (t : Tab α) (k : Nat) (v : α)
    (h : Tab.wf d t = true) : tget d (mset d t k v) k = v := by
  induction t with
  | nil => by_cases e : v = d <;> simp [mset, tget, e]
  | cons p r ih =>
    obtain ⟨j, w⟩ := p
    have hr : Tab.wf d r = true := by
      cases r with
      | nil => rfl
      | cons q r' => simp [Tab.wf] at h; exact h.2
    have gap : ∀ i, i ≤ j → tget d r i = d := by
      clear ih hr
      induction r generalizing j w with
      | nil => intros; rfl
      | cons q r' ih' =>
        obtain ⟨j', w'⟩ := q
        simp [Tab.wf] at h
        intro i hi
        have h1 : ¬ i = j' := by omega
        simp only [tget, h1, if_false]
        exact ih' j' w' h.2 i (by omega)
    simp only [mset]
    split
    · rename_i e
      split
      · rename_i e'
        rw [e', e]
        exact gap j (Nat.le_refl j)
      · simp [tget]
    · split
      · split
        · rename_i h1 h2 e'
          simp only [tget, h1, if_false]
          rw [e']
          exact gap k (Nat.le_of_lt h2)
        · simp [tget]
      · rename_i h1 h2
        simp only [tget, h1, if_false]
        exact ih hr

theorem tget_mset_ne {α : Type} [DecidableEq α] (d : α) (t : Tab α) {k i : Nat} (v : α) (h : i ≠ k) :
    tget d (mset d t k v) i = tget d t i := by
  induction t with
  | nil => by_cases e : v = d <;> simp [mset, tget, e, h]
  | cons p r ih =>
    obtain ⟨j, w⟩ := p
    simp only [mset]
    split
    · rename_i e
      subst e
      split <;> simp [tget, h]
    · split
      · split <;> simp [tget, h]
      · simp only [tget, ih]

/-! ### The canonical form -/

/-- The head of what `mset` leaves is no lower than the lower of its key and the old head. -/
theorem wf_cons {α : Type} [DecidableEq α] (d : α) (j : Nat) (v : α) (r : Tab α) :
    Tab.wf d ((j, v) :: r) = true ↔ v ≠ d ∧ (∀ p ∈ r, j < p.1) ∧ Tab.wf d r = true := by
  induction r generalizing j v with
  | nil => simp [Tab.wf]
  | cons q r ih =>
    obtain ⟨k, w⟩ := q
    simp only [Tab.wf, Bool.and_eq_true, decide_eq_true_eq, List.mem_cons, forall_eq_or_imp]
    constructor
    · rintro ⟨⟨h1, h2⟩, h3⟩
      refine ⟨h2, ⟨h1, ?_⟩, h3⟩
      intro p hp
      have := ((ih k w).1 h3).2.1 p hp
      omega
    · rintro ⟨h1, ⟨h2, _⟩, h3⟩
      exact ⟨⟨h2, h1⟩, h3⟩

theorem mem_mset {α : Type} [DecidableEq α] {d : α} {t : Tab α} {k : Nat} {v : α} {p : Nat × α} (h : p ∈ mset d t k v) :
    p.1 = k ∨ p ∈ t := by
  induction t with
  | nil => by_cases e : v = d <;> simp_all [mset]
  | cons q r ih =>
    obtain ⟨j, w⟩ := q
    simp only [mset] at h
    split at h
    · split at h
      · exact .inr (List.mem_cons_of_mem _ h)
      · simp only [List.mem_cons] at h ⊢
        rcases h with rfl | h
        · exact .inl rfl
        · exact .inr (.inr h)
    · split at h
      · split at h
        · exact .inr h
        · simp only [List.mem_cons] at h ⊢
          rcases h with rfl | h
          · exact .inl rfl
          · exact .inr h
      · simp only [List.mem_cons] at h ⊢
        rcases h with rfl | h
        · exact .inr (.inl rfl)
        · rcases ih h with h | h
          · exact .inl h
          · exact .inr (.inr h)

/-- Writing a table in canonical form leaves it in canonical form. -/
theorem mset_wf {α : Type} [DecidableEq α] (d : α) (t : Tab α) (k : Nat) (v : α) (h : Tab.wf d t = true) :
    Tab.wf d (mset d t k v) = true := by
  induction t with
  | nil => by_cases e : v = d <;> simp [mset, Tab.wf, e]
  | cons q r ih =>
    obtain ⟨j, w⟩ := q
    have h' := (wf_cons d j w r).1 h
    simp only [mset]
    split
    · rename_i e
      subst e
      split
      · exact h'.2.2
      · exact (wf_cons ..).2 ⟨by assumption, h'.2.1, h'.2.2⟩
    · split
      · split
        · exact h
        · rename_i h1 h2 e
          refine (wf_cons ..).2 ⟨e, ?_, h⟩
          intro p hp
          simp only [List.mem_cons] at hp
          rcases hp with rfl | hp
          · exact h2
          · exact Nat.lt_trans h2 (h'.2.1 p hp)
      · rename_i h1 h2
        refine (wf_cons ..).2 ⟨h'.1, ?_, ih h'.2.2⟩
        intro p hp
        rcases mem_mset hp with e | hp
        · omega
        · exact h'.2.1 p hp

/-- Removing entries keeps the canonical form. -/
theorem filter_wf {α : Type} [DecidableEq α] (d : α) (t : Tab α) (f : Nat × α → Bool) (h : Tab.wf d t = true) :
    Tab.wf d (t.filter f) = true := by
  induction t with
  | nil => rfl
  | cons q r ih =>
    obtain ⟨j, w⟩ := q
    have h' := (wf_cons d j w r).1 h
    simp only [List.filter]
    split
    · refine (wf_cons ..).2 ⟨h'.1, ?_, ih h'.2.2⟩
      intro p hp
      exact h'.2.1 p (List.mem_filter.1 hp).1
    · exact ih h'.2.2

end Sys2Proof.Machine
end

