-- ==== Sys2Proof/Laws/Memory.lean ====
section
/-!
SUPPORT. Laws of memory: reading after writing, and the canonical form, which every memory operation keeps (log entry 9).
-/

namespace Sys2Proof.Machine

theorem reset_wf : State.reset.mem.wf = true := by rfl

theorem put_wf (m : Mem) (k : Nat) (b : Byte) (h : m.wf = true) : (m.put k b).wf = true := mset_wf 0 m.cells k b h

/-- A byte reads as it was written. -/
theorem get_put_self (m : Mem) (k : Nat) (b : Byte) (h : m.wf = true) : (m.put k b).get k = b :=
  tget_mset_self 0 m.cells k b h

/-- Every other byte reads as before. -/
theorem get_put_ne (m : Mem) {k j : Nat} (b : Byte) (h : j ≠ k) : (m.put k b).get j = m.get j :=
  tget_mset_ne 0 m.cells b h

theorem puts_wf (m : Mem) (k : Nat) (bs : List Byte) (h : m.wf = true) : (m.puts k bs).wf = true := by
  induction bs generalizing m k with
  | nil => exact h
  | cons b r ih => exact ih _ _ (put_wf m k b h)

/-- Bytes below the first written stay. -/
theorem get_puts_lt (m : Mem) (k j : Nat) (bs : List Byte) (h : j < k) : (m.puts k bs).get j = m.get j := by
  induction bs generalizing m k with
  | nil => rfl
  | cons b r ih =>
    simp only [Mem.puts]
    rw [ih _ (k + 1) (by omega), get_put_ne _ _ (by omega)]

/-- Bytes beyond the last written stay. -/
theorem get_puts_ge (m : Mem) (k j : Nat) (bs : List Byte) (h : k + bs.length ≤ j) : (m.puts k bs).get j = m.get j := by
  induction bs generalizing m k with
  | nil => rfl
  | cons b r ih =>
    simp only [List.length_cons] at h
    simp only [Mem.puts]
    rw [ih _ (k + 1) (by omega), get_put_ne _ _ (by omega)]

/-- The bytes written read as they were written. -/
theorem get_puts_mem (m : Mem) (k i : Nat) (bs : List Byte) (hm : m.wf = true) (h : i < bs.length) :
    (m.puts k bs).get (k + i) = bs[i] := by
  induction bs generalizing m k i with
  | nil => simp at h
  | cons b r ih =>
    simp only [Mem.puts]
    cases i with
    | zero =>
      rw [Nat.add_zero k, get_puts_lt _ (k + 1) k _ (by omega)]
      exact get_put_self m k b hm
    | succ i =>
      have e : k + (i + 1) = k + 1 + i := by omega
      simp only [List.length_cons] at h
      rw [e, ih _ (k + 1) i (put_wf m k b hm) (by omega)]
      rfl

theorem foldl_put_wf {α : Type} (l : List α) (f : α → Nat × Byte) (m : Mem) (h : m.wf = true) :
    (l.foldl (fun m x => m.put (f x).1 (f x).2) m).wf = true := by
  induction l generalizing m with
  | nil => exact h
  | cons x r ih => exact ih _ (put_wf m _ _ h)

theorem rput_wf (s : State) (a : Nat) (bs : List Byte) (h : s.mem.wf = true) : (s.rput a bs).mem.wf = true :=
  foldl_put_wf _ (fun p : Nat × Byte => (s.phys (a + p.1), p.2)) s.mem h

theorem clearFrame_wf (m : Mem) (k f : Nat) (h : m.wf = true) : (m.clearFrame k f).wf = true :=
  filter_wf 0 m.cells _ h

theorem copyFrame_wf (m : Mem) (k f k' f' : Nat) (h : m.wf = true) : (m.copyFrame k f k' f').wf = true :=
  foldl_put_wf _ (fun c : Nat × Byte => (physKey k' f' (c.1 % 2 ^ 21), c.2)) _ (clearFrame_wf m k' f' h)

theorem copyPart_wf (m : Mem) (x y lo len : Nat) (h : m.wf = true) : (m.copyPart x y lo len).wf = true :=
  foldl_put_wf _ (fun c : Nat × Byte => (y * 2 ^ 21 + c.1 % 2 ^ 21, c.2)) _ (filter_wf 0 m.cells _ h)

theorem writeRegion_poison_wf (l : List Nat) (f : Nat → Nat) (s : State) (h : s.mem.wf = true) :
    (l.foldl (fun (s : State) k => { s with mem := { s.mem with poison := s.mem.poison.erase (f k) } }) s).mem.wf = true := by
  induction l generalizing s with
  | nil => exact h
  | cons x r ih => exact ih _ h

end Sys2Proof.Machine
end

