-- ==== Sys2Proof/Laws/State.lean ====
section
/-!
SUPPORT. What each update of State leaves as it was: one lemma for each update and field, true by rfl; and what the accessors read after
an update.
-/

namespace Sys2Proof.Machine

/-! ### setStn -/

@[simp] theorem setStn_pending (s : State) (n : Nat) (x : Station) : (s.setStn n x).pending = s.pending := rfl
@[simp] theorem setStn_aon (s : State) (n : Nat) (x : Station) : (s.setStn n x).aon = s.aon := rfl
@[simp] theorem setStn_out (s : State) (n : Nat) (x : Station) : (s.setStn n x).out = s.out := rfl
@[simp] theorem setStn_mem (s : State) (n : Nat) (x : Station) : (s.setStn n x).mem = s.mem := rfl
@[simp] theorem setStn_seams (s : State) (n : Nat) (x : Station) : (s.setStn n x).seams = s.seams := rfl
@[simp] theorem setStn_trk (s : State) (n : Nat) (x : Station) : (s.setStn n x).trk = s.trk := rfl
@[simp] theorem setStn_parcels (s : State) (n : Nat) (x : Station) : (s.setStn n x).parcels = s.parcels := rfl
@[simp] theorem setStn_reqs (s : State) (n : Nat) (x : Station) : (s.setStn n x).reqs = s.reqs := rfl
@[simp] theorem setStn_gates (s : State) (n : Nat) (x : Station) : (s.setStn n x).gates = s.gates := rfl
@[simp] theorem setStn_adapts (s : State) (n : Nat) (x : Station) : (s.setStn n x).adapts = s.adapts := rfl
@[simp] theorem setStn_duty (s : State) (n : Nat) (x : Station) : (s.setStn n x).duty = s.duty := rfl
@[simp] theorem setStn_srvCtr (s : State) (n : Nat) (x : Station) : (s.setStn n x).srvCtr = s.srvCtr := rfl
@[simp] theorem setStn_mbox (s : State) (n : Nat) (x : Station) : (s.setStn n x).mbox = s.mbox := rfl
@[simp] theorem setStn_mboxCtr (s : State) (n : Nat) (x : Station) : (s.setStn n x).mboxCtr = s.mboxCtr := rfl
@[simp] theorem setStn_presets (s : State) (n : Nat) (x : Station) : (s.setStn n x).presets = s.presets := rfl
@[simp] theorem setStn_i3c (s : State) (n : Nat) (x : Station) : (s.setStn n x).i3c = s.i3c := rfl
@[simp] theorem setStn_plan (s : State) (n : Nat) (x : Station) : (s.setStn n x).plan = s.plan := rfl
@[simp] theorem setStn_modNum (s : State) (n : Nat) (x : Station) : (s.setStn n x).modNum = s.modNum := rfl
@[simp] theorem setStn_sent (s : State) (n : Nat) (x : Station) : (s.setStn n x).sent = s.sent := rfl
@[simp] theorem setStn_trvTag (s : State) (n : Nat) (x : Station) : (s.setStn n x).trvTag = s.trvTag := rfl
@[simp] theorem setStn_trv (s : State) (n : Nat) (x : Station) : (s.setStn n x).trv = s.trv := rfl
@[simp] theorem setStn_clk (s : State) (n : Nat) (x : Station) : (s.setStn n x).clk = s.clk := rfl
@[simp] theorem setStn_pwr (s : State) (n : Nat) (x : Station) : (s.setStn n x).pwr = s.pwr := rfl
@[simp] theorem setStn_sec (s : State) (n : Nat) (x : Station) : (s.setStn n x).sec = s.sec := rfl
@[simp] theorem setStn_dep (s : State) (n : Nat) (x : Station) : (s.setStn n x).dep = s.dep := rfl
@[simp] theorem setStn_cairn (s : State) (n : Nat) (x : Station) : (s.setStn n x).cairn = s.cairn := rfl
@[simp] theorem setStn_panel (s : State) (n : Nat) (x : Station) : (s.setStn n x).panel = s.panel := rfl
@[simp] theorem setStn_draws (s : State) (n : Nat) (x : Station) : (s.setStn n x).draws = s.draws := rfl
@[simp] theorem setStn_free (s : State) (n : Nat) (x : Station) : (s.setStn n x).free = s.free := rfl

/-! ### modStn -/

@[simp] theorem modStn_pending (s : State) (n : Nat) (f : Station → Station) : (s.modStn n f).pending = s.pending := rfl
@[simp] theorem modStn_aon (s : State) (n : Nat) (f : Station → Station) : (s.modStn n f).aon = s.aon := rfl
@[simp] theorem modStn_out (s : State) (n : Nat) (f : Station → Station) : (s.modStn n f).out = s.out := rfl
@[simp] theorem modStn_mem (s : State) (n : Nat) (f : Station → Station) : (s.modStn n f).mem = s.mem := rfl
@[simp] theorem modStn_seams (s : State) (n : Nat) (f : Station → Station) : (s.modStn n f).seams = s.seams := rfl
@[simp] theorem modStn_trk (s : State) (n : Nat) (f : Station → Station) : (s.modStn n f).trk = s.trk := rfl
@[simp] theorem modStn_parcels (s : State) (n : Nat) (f : Station → Station) : (s.modStn n f).parcels = s.parcels := rfl
@[simp] theorem modStn_reqs (s : State) (n : Nat) (f : Station → Station) : (s.modStn n f).reqs = s.reqs := rfl
@[simp] theorem modStn_gates (s : State) (n : Nat) (f : Station → Station) : (s.modStn n f).gates = s.gates := rfl
@[simp] theorem modStn_adapts (s : State) (n : Nat) (f : Station → Station) : (s.modStn n f).adapts = s.adapts := rfl
@[simp] theorem modStn_duty (s : State) (n : Nat) (f : Station → Station) : (s.modStn n f).duty = s.duty := rfl
@[simp] theorem modStn_srvCtr (s : State) (n : Nat) (f : Station → Station) : (s.modStn n f).srvCtr = s.srvCtr := rfl
@[simp] theorem modStn_mbox (s : State) (n : Nat) (f : Station → Station) : (s.modStn n f).mbox = s.mbox := rfl
@[simp] theorem modStn_mboxCtr (s : State) (n : Nat) (f : Station → Station) : (s.modStn n f).mboxCtr = s.mboxCtr := rfl
@[simp] theorem modStn_presets (s : State) (n : Nat) (f : Station → Station) : (s.modStn n f).presets = s.presets := rfl
@[simp] theorem modStn_i3c (s : State) (n : Nat) (f : Station → Station) : (s.modStn n f).i3c = s.i3c := rfl
@[simp] theorem modStn_plan (s : State) (n : Nat) (f : Station → Station) : (s.modStn n f).plan = s.plan := rfl
@[simp] theorem modStn_modNum (s : State) (n : Nat) (f : Station → Station) : (s.modStn n f).modNum = s.modNum := rfl
@[simp] theorem modStn_sent (s : State) (n : Nat) (f : Station → Station) : (s.modStn n f).sent = s.sent := rfl
@[simp] theorem modStn_trvTag (s : State) (n : Nat) (f : Station → Station) : (s.modStn n f).trvTag = s.trvTag := rfl
@[simp] theorem modStn_trv (s : State) (n : Nat) (f : Station → Station) : (s.modStn n f).trv = s.trv := rfl
@[simp] theorem modStn_clk (s : State) (n : Nat) (f : Station → Station) : (s.modStn n f).clk = s.clk := rfl
@[simp] theorem modStn_pwr (s : State) (n : Nat) (f : Station → Station) : (s.modStn n f).pwr = s.pwr := rfl
@[simp] theorem modStn_sec (s : State) (n : Nat) (f : Station → Station) : (s.modStn n f).sec = s.sec := rfl
@[simp] theorem modStn_dep (s : State) (n : Nat) (f : Station → Station) : (s.modStn n f).dep = s.dep := rfl
@[simp] theorem modStn_cairn (s : State) (n : Nat) (f : Station → Station) : (s.modStn n f).cairn = s.cairn := rfl
@[simp] theorem modStn_panel (s : State) (n : Nat) (f : Station → Station) : (s.modStn n f).panel = s.panel := rfl
@[simp] theorem modStn_draws (s : State) (n : Nat) (f : Station → Station) : (s.modStn n f).draws = s.draws := rfl
@[simp] theorem modStn_free (s : State) (n : Nat) (f : Station → Station) : (s.modStn n f).free = s.free := rfl

/-! ### modCore -/

@[simp] theorem modCore_pending (s : State) (n : Nat) (f : StCore → StCore) : (s.modCore n f).pending = s.pending := rfl
@[simp] theorem modCore_aon (s : State) (n : Nat) (f : StCore → StCore) : (s.modCore n f).aon = s.aon := rfl
@[simp] theorem modCore_out (s : State) (n : Nat) (f : StCore → StCore) : (s.modCore n f).out = s.out := rfl
@[simp] theorem modCore_mem (s : State) (n : Nat) (f : StCore → StCore) : (s.modCore n f).mem = s.mem := rfl
@[simp] theorem modCore_seams (s : State) (n : Nat) (f : StCore → StCore) : (s.modCore n f).seams = s.seams := rfl
@[simp] theorem modCore_trk (s : State) (n : Nat) (f : StCore → StCore) : (s.modCore n f).trk = s.trk := rfl
@[simp] theorem modCore_parcels (s : State) (n : Nat) (f : StCore → StCore) : (s.modCore n f).parcels = s.parcels := rfl
@[simp] theorem modCore_reqs (s : State) (n : Nat) (f : StCore → StCore) : (s.modCore n f).reqs = s.reqs := rfl
@[simp] theorem modCore_gates (s : State) (n : Nat) (f : StCore → StCore) : (s.modCore n f).gates = s.gates := rfl
@[simp] theorem modCore_adapts (s : State) (n : Nat) (f : StCore → StCore) : (s.modCore n f).adapts = s.adapts := rfl
@[simp] theorem modCore_duty (s : State) (n : Nat) (f : StCore → StCore) : (s.modCore n f).duty = s.duty := rfl
@[simp] theorem modCore_srvCtr (s : State) (n : Nat) (f : StCore → StCore) : (s.modCore n f).srvCtr = s.srvCtr := rfl
@[simp] theorem modCore_mbox (s : State) (n : Nat) (f : StCore → StCore) : (s.modCore n f).mbox = s.mbox := rfl
@[simp] theorem modCore_mboxCtr (s : State) (n : Nat) (f : StCore → StCore) : (s.modCore n f).mboxCtr = s.mboxCtr := rfl
@[simp] theorem modCore_presets (s : State) (n : Nat) (f : StCore → StCore) : (s.modCore n f).presets = s.presets := rfl
@[simp] theorem modCore_i3c (s : State) (n : Nat) (f : StCore → StCore) : (s.modCore n f).i3c = s.i3c := rfl
@[simp] theorem modCore_plan (s : State) (n : Nat) (f : StCore → StCore) : (s.modCore n f).plan = s.plan := rfl
@[simp] theorem modCore_modNum (s : State) (n : Nat) (f : StCore → StCore) : (s.modCore n f).modNum = s.modNum := rfl
@[simp] theorem modCore_sent (s : State) (n : Nat) (f : StCore → StCore) : (s.modCore n f).sent = s.sent := rfl
@[simp] theorem modCore_trvTag (s : State) (n : Nat) (f : StCore → StCore) : (s.modCore n f).trvTag = s.trvTag := rfl
@[simp] theorem modCore_trv (s : State) (n : Nat) (f : StCore → StCore) : (s.modCore n f).trv = s.trv := rfl
@[simp] theorem modCore_clk (s : State) (n : Nat) (f : StCore → StCore) : (s.modCore n f).clk = s.clk := rfl
@[simp] theorem modCore_pwr (s : State) (n : Nat) (f : StCore → StCore) : (s.modCore n f).pwr = s.pwr := rfl
@[simp] theorem modCore_sec (s : State) (n : Nat) (f : StCore → StCore) : (s.modCore n f).sec = s.sec := rfl
@[simp] theorem modCore_dep (s : State) (n : Nat) (f : StCore → StCore) : (s.modCore n f).dep = s.dep := rfl
@[simp] theorem modCore_cairn (s : State) (n : Nat) (f : StCore → StCore) : (s.modCore n f).cairn = s.cairn := rfl
@[simp] theorem modCore_panel (s : State) (n : Nat) (f : StCore → StCore) : (s.modCore n f).panel = s.panel := rfl
@[simp] theorem modCore_draws (s : State) (n : Nat) (f : StCore → StCore) : (s.modCore n f).draws = s.draws := rfl
@[simp] theorem modCore_free (s : State) (n : Nat) (f : StCore → StCore) : (s.modCore n f).free = s.free := rfl

/-! ### modParcel -/

@[simp] theorem modParcel_pending (s : State) (p : Nat) (f : Parcel → Parcel) : (s.modParcel p f).pending = s.pending := rfl
@[simp] theorem modParcel_aon (s : State) (p : Nat) (f : Parcel → Parcel) : (s.modParcel p f).aon = s.aon := rfl
@[simp] theorem modParcel_out (s : State) (p : Nat) (f : Parcel → Parcel) : (s.modParcel p f).out = s.out := rfl
@[simp] theorem modParcel_stns (s : State) (p : Nat) (f : Parcel → Parcel) : (s.modParcel p f).stns = s.stns := rfl
@[simp] theorem modParcel_mem (s : State) (p : Nat) (f : Parcel → Parcel) : (s.modParcel p f).mem = s.mem := rfl
@[simp] theorem modParcel_seams (s : State) (p : Nat) (f : Parcel → Parcel) : (s.modParcel p f).seams = s.seams := rfl
@[simp] theorem modParcel_trk (s : State) (p : Nat) (f : Parcel → Parcel) : (s.modParcel p f).trk = s.trk := rfl
@[simp] theorem modParcel_reqs (s : State) (p : Nat) (f : Parcel → Parcel) : (s.modParcel p f).reqs = s.reqs := rfl
@[simp] theorem modParcel_gates (s : State) (p : Nat) (f : Parcel → Parcel) : (s.modParcel p f).gates = s.gates := rfl
@[simp] theorem modParcel_adapts (s : State) (p : Nat) (f : Parcel → Parcel) : (s.modParcel p f).adapts = s.adapts := rfl
@[simp] theorem modParcel_duty (s : State) (p : Nat) (f : Parcel → Parcel) : (s.modParcel p f).duty = s.duty := rfl
@[simp] theorem modParcel_srvCtr (s : State) (p : Nat) (f : Parcel → Parcel) : (s.modParcel p f).srvCtr = s.srvCtr := rfl
@[simp] theorem modParcel_mbox (s : State) (p : Nat) (f : Parcel → Parcel) : (s.modParcel p f).mbox = s.mbox := rfl
@[simp] theorem modParcel_mboxCtr (s : State) (p : Nat) (f : Parcel → Parcel) : (s.modParcel p f).mboxCtr = s.mboxCtr := rfl
@[simp] theorem modParcel_presets (s : State) (p : Nat) (f : Parcel → Parcel) : (s.modParcel p f).presets = s.presets := rfl
@[simp] theorem modParcel_i3c (s : State) (p : Nat) (f : Parcel → Parcel) : (s.modParcel p f).i3c = s.i3c := rfl
@[simp] theorem modParcel_plan (s : State) (p : Nat) (f : Parcel → Parcel) : (s.modParcel p f).plan = s.plan := rfl
@[simp] theorem modParcel_modNum (s : State) (p : Nat) (f : Parcel → Parcel) : (s.modParcel p f).modNum = s.modNum := rfl
@[simp] theorem modParcel_sent (s : State) (p : Nat) (f : Parcel → Parcel) : (s.modParcel p f).sent = s.sent := rfl
@[simp] theorem modParcel_trvTag (s : State) (p : Nat) (f : Parcel → Parcel) : (s.modParcel p f).trvTag = s.trvTag := rfl
@[simp] theorem modParcel_trv (s : State) (p : Nat) (f : Parcel → Parcel) : (s.modParcel p f).trv = s.trv := rfl
@[simp] theorem modParcel_clk (s : State) (p : Nat) (f : Parcel → Parcel) : (s.modParcel p f).clk = s.clk := rfl
@[simp] theorem modParcel_pwr (s : State) (p : Nat) (f : Parcel → Parcel) : (s.modParcel p f).pwr = s.pwr := rfl
@[simp] theorem modParcel_sec (s : State) (p : Nat) (f : Parcel → Parcel) : (s.modParcel p f).sec = s.sec := rfl
@[simp] theorem modParcel_dep (s : State) (p : Nat) (f : Parcel → Parcel) : (s.modParcel p f).dep = s.dep := rfl
@[simp] theorem modParcel_cairn (s : State) (p : Nat) (f : Parcel → Parcel) : (s.modParcel p f).cairn = s.cairn := rfl
@[simp] theorem modParcel_panel (s : State) (p : Nat) (f : Parcel → Parcel) : (s.modParcel p f).panel = s.panel := rfl
@[simp] theorem modParcel_draws (s : State) (p : Nat) (f : Parcel → Parcel) : (s.modParcel p f).draws = s.draws := rfl
@[simp] theorem modParcel_free (s : State) (p : Nat) (f : Parcel → Parcel) : (s.modParcel p f).free = s.free := rfl

/-! ### modReq -/

@[simp] theorem modReq_pending (s : State) (r : Nat) (f : Request → Request) : (s.modReq r f).pending = s.pending := rfl
@[simp] theorem modReq_aon (s : State) (r : Nat) (f : Request → Request) : (s.modReq r f).aon = s.aon := rfl
@[simp] theorem modReq_out (s : State) (r : Nat) (f : Request → Request) : (s.modReq r f).out = s.out := rfl
@[simp] theorem modReq_stns (s : State) (r : Nat) (f : Request → Request) : (s.modReq r f).stns = s.stns := rfl
@[simp] theorem modReq_mem (s : State) (r : Nat) (f : Request → Request) : (s.modReq r f).mem = s.mem := rfl
@[simp] theorem modReq_seams (s : State) (r : Nat) (f : Request → Request) : (s.modReq r f).seams = s.seams := rfl
@[simp] theorem modReq_trk (s : State) (r : Nat) (f : Request → Request) : (s.modReq r f).trk = s.trk := rfl
@[simp] theorem modReq_parcels (s : State) (r : Nat) (f : Request → Request) : (s.modReq r f).parcels = s.parcels := rfl
@[simp] theorem modReq_gates (s : State) (r : Nat) (f : Request → Request) : (s.modReq r f).gates = s.gates := rfl
@[simp] theorem modReq_adapts (s : State) (r : Nat) (f : Request → Request) : (s.modReq r f).adapts = s.adapts := rfl
@[simp] theorem modReq_duty (s : State) (r : Nat) (f : Request → Request) : (s.modReq r f).duty = s.duty := rfl
@[simp] theorem modReq_srvCtr (s : State) (r : Nat) (f : Request → Request) : (s.modReq r f).srvCtr = s.srvCtr := rfl
@[simp] theorem modReq_mbox (s : State) (r : Nat) (f : Request → Request) : (s.modReq r f).mbox = s.mbox := rfl
@[simp] theorem modReq_mboxCtr (s : State) (r : Nat) (f : Request → Request) : (s.modReq r f).mboxCtr = s.mboxCtr := rfl
@[simp] theorem modReq_presets (s : State) (r : Nat) (f : Request → Request) : (s.modReq r f).presets = s.presets := rfl
@[simp] theorem modReq_i3c (s : State) (r : Nat) (f : Request → Request) : (s.modReq r f).i3c = s.i3c := rfl
@[simp] theorem modReq_plan (s : State) (r : Nat) (f : Request → Request) : (s.modReq r f).plan = s.plan := rfl
@[simp] theorem modReq_modNum (s : State) (r : Nat) (f : Request → Request) : (s.modReq r f).modNum = s.modNum := rfl
@[simp] theorem modReq_sent (s : State) (r : Nat) (f : Request → Request) : (s.modReq r f).sent = s.sent := rfl
@[simp] theorem modReq_trvTag (s : State) (r : Nat) (f : Request → Request) : (s.modReq r f).trvTag = s.trvTag := rfl
@[simp] theorem modReq_trv (s : State) (r : Nat) (f : Request → Request) : (s.modReq r f).trv = s.trv := rfl
@[simp] theorem modReq_clk (s : State) (r : Nat) (f : Request → Request) : (s.modReq r f).clk = s.clk := rfl
@[simp] theorem modReq_pwr (s : State) (r : Nat) (f : Request → Request) : (s.modReq r f).pwr = s.pwr := rfl
@[simp] theorem modReq_sec (s : State) (r : Nat) (f : Request → Request) : (s.modReq r f).sec = s.sec := rfl
@[simp] theorem modReq_dep (s : State) (r : Nat) (f : Request → Request) : (s.modReq r f).dep = s.dep := rfl
@[simp] theorem modReq_cairn (s : State) (r : Nat) (f : Request → Request) : (s.modReq r f).cairn = s.cairn := rfl
@[simp] theorem modReq_panel (s : State) (r : Nat) (f : Request → Request) : (s.modReq r f).panel = s.panel := rfl
@[simp] theorem modReq_draws (s : State) (r : Nat) (f : Request → Request) : (s.modReq r f).draws = s.draws := rfl
@[simp] theorem modReq_free (s : State) (r : Nat) (f : Request → Request) : (s.modReq r f).free = s.free := rfl

/-! ### modGate -/

@[simp] theorem modGate_pending (s : State) (g : Nat) (f : Gate → Gate) : (s.modGate g f).pending = s.pending := rfl
@[simp] theorem modGate_aon (s : State) (g : Nat) (f : Gate → Gate) : (s.modGate g f).aon = s.aon := rfl
@[simp] theorem modGate_out (s : State) (g : Nat) (f : Gate → Gate) : (s.modGate g f).out = s.out := rfl
@[simp] theorem modGate_stns (s : State) (g : Nat) (f : Gate → Gate) : (s.modGate g f).stns = s.stns := rfl
@[simp] theorem modGate_mem (s : State) (g : Nat) (f : Gate → Gate) : (s.modGate g f).mem = s.mem := rfl
@[simp] theorem modGate_seams (s : State) (g : Nat) (f : Gate → Gate) : (s.modGate g f).seams = s.seams := rfl
@[simp] theorem modGate_trk (s : State) (g : Nat) (f : Gate → Gate) : (s.modGate g f).trk = s.trk := rfl
@[simp] theorem modGate_parcels (s : State) (g : Nat) (f : Gate → Gate) : (s.modGate g f).parcels = s.parcels := rfl
@[simp] theorem modGate_reqs (s : State) (g : Nat) (f : Gate → Gate) : (s.modGate g f).reqs = s.reqs := rfl
@[simp] theorem modGate_adapts (s : State) (g : Nat) (f : Gate → Gate) : (s.modGate g f).adapts = s.adapts := rfl
@[simp] theorem modGate_duty (s : State) (g : Nat) (f : Gate → Gate) : (s.modGate g f).duty = s.duty := rfl
@[simp] theorem modGate_srvCtr (s : State) (g : Nat) (f : Gate → Gate) : (s.modGate g f).srvCtr = s.srvCtr := rfl
@[simp] theorem modGate_mbox (s : State) (g : Nat) (f : Gate → Gate) : (s.modGate g f).mbox = s.mbox := rfl
@[simp] theorem modGate_mboxCtr (s : State) (g : Nat) (f : Gate → Gate) : (s.modGate g f).mboxCtr = s.mboxCtr := rfl
@[simp] theorem modGate_presets (s : State) (g : Nat) (f : Gate → Gate) : (s.modGate g f).presets = s.presets := rfl
@[simp] theorem modGate_i3c (s : State) (g : Nat) (f : Gate → Gate) : (s.modGate g f).i3c = s.i3c := rfl
@[simp] theorem modGate_plan (s : State) (g : Nat) (f : Gate → Gate) : (s.modGate g f).plan = s.plan := rfl
@[simp] theorem modGate_modNum (s : State) (g : Nat) (f : Gate → Gate) : (s.modGate g f).modNum = s.modNum := rfl
@[simp] theorem modGate_sent (s : State) (g : Nat) (f : Gate → Gate) : (s.modGate g f).sent = s.sent := rfl
@[simp] theorem modGate_trvTag (s : State) (g : Nat) (f : Gate → Gate) : (s.modGate g f).trvTag = s.trvTag := rfl
@[simp] theorem modGate_trv (s : State) (g : Nat) (f : Gate → Gate) : (s.modGate g f).trv = s.trv := rfl
@[simp] theorem modGate_clk (s : State) (g : Nat) (f : Gate → Gate) : (s.modGate g f).clk = s.clk := rfl
@[simp] theorem modGate_pwr (s : State) (g : Nat) (f : Gate → Gate) : (s.modGate g f).pwr = s.pwr := rfl
@[simp] theorem modGate_sec (s : State) (g : Nat) (f : Gate → Gate) : (s.modGate g f).sec = s.sec := rfl
@[simp] theorem modGate_dep (s : State) (g : Nat) (f : Gate → Gate) : (s.modGate g f).dep = s.dep := rfl
@[simp] theorem modGate_cairn (s : State) (g : Nat) (f : Gate → Gate) : (s.modGate g f).cairn = s.cairn := rfl
@[simp] theorem modGate_panel (s : State) (g : Nat) (f : Gate → Gate) : (s.modGate g f).panel = s.panel := rfl
@[simp] theorem modGate_draws (s : State) (g : Nat) (f : Gate → Gate) : (s.modGate g f).draws = s.draws := rfl
@[simp] theorem modGate_free (s : State) (g : Nat) (f : Gate → Gate) : (s.modGate g f).free = s.free := rfl

/-! ### modBox -/

@[simp] theorem modBox_pending (s : State) (m : Nat) (f : Mbox → Mbox) : (s.modBox m f).pending = s.pending := rfl
@[simp] theorem modBox_aon (s : State) (m : Nat) (f : Mbox → Mbox) : (s.modBox m f).aon = s.aon := rfl
@[simp] theorem modBox_out (s : State) (m : Nat) (f : Mbox → Mbox) : (s.modBox m f).out = s.out := rfl
@[simp] theorem modBox_stns (s : State) (m : Nat) (f : Mbox → Mbox) : (s.modBox m f).stns = s.stns := rfl
@[simp] theorem modBox_mem (s : State) (m : Nat) (f : Mbox → Mbox) : (s.modBox m f).mem = s.mem := rfl
@[simp] theorem modBox_seams (s : State) (m : Nat) (f : Mbox → Mbox) : (s.modBox m f).seams = s.seams := rfl
@[simp] theorem modBox_trk (s : State) (m : Nat) (f : Mbox → Mbox) : (s.modBox m f).trk = s.trk := rfl
@[simp] theorem modBox_parcels (s : State) (m : Nat) (f : Mbox → Mbox) : (s.modBox m f).parcels = s.parcels := rfl
@[simp] theorem modBox_reqs (s : State) (m : Nat) (f : Mbox → Mbox) : (s.modBox m f).reqs = s.reqs := rfl
@[simp] theorem modBox_gates (s : State) (m : Nat) (f : Mbox → Mbox) : (s.modBox m f).gates = s.gates := rfl
@[simp] theorem modBox_adapts (s : State) (m : Nat) (f : Mbox → Mbox) : (s.modBox m f).adapts = s.adapts := rfl
@[simp] theorem modBox_duty (s : State) (m : Nat) (f : Mbox → Mbox) : (s.modBox m f).duty = s.duty := rfl
@[simp] theorem modBox_srvCtr (s : State) (m : Nat) (f : Mbox → Mbox) : (s.modBox m f).srvCtr = s.srvCtr := rfl
@[simp] theorem modBox_mboxCtr (s : State) (m : Nat) (f : Mbox → Mbox) : (s.modBox m f).mboxCtr = s.mboxCtr := rfl
@[simp] theorem modBox_presets (s : State) (m : Nat) (f : Mbox → Mbox) : (s.modBox m f).presets = s.presets := rfl
@[simp] theorem modBox_i3c (s : State) (m : Nat) (f : Mbox → Mbox) : (s.modBox m f).i3c = s.i3c := rfl
@[simp] theorem modBox_plan (s : State) (m : Nat) (f : Mbox → Mbox) : (s.modBox m f).plan = s.plan := rfl
@[simp] theorem modBox_modNum (s : State) (m : Nat) (f : Mbox → Mbox) : (s.modBox m f).modNum = s.modNum := rfl
@[simp] theorem modBox_sent (s : State) (m : Nat) (f : Mbox → Mbox) : (s.modBox m f).sent = s.sent := rfl
@[simp] theorem modBox_trvTag (s : State) (m : Nat) (f : Mbox → Mbox) : (s.modBox m f).trvTag = s.trvTag := rfl
@[simp] theorem modBox_trv (s : State) (m : Nat) (f : Mbox → Mbox) : (s.modBox m f).trv = s.trv := rfl
@[simp] theorem modBox_clk (s : State) (m : Nat) (f : Mbox → Mbox) : (s.modBox m f).clk = s.clk := rfl
@[simp] theorem modBox_pwr (s : State) (m : Nat) (f : Mbox → Mbox) : (s.modBox m f).pwr = s.pwr := rfl
@[simp] theorem modBox_sec (s : State) (m : Nat) (f : Mbox → Mbox) : (s.modBox m f).sec = s.sec := rfl
@[simp] theorem modBox_dep (s : State) (m : Nat) (f : Mbox → Mbox) : (s.modBox m f).dep = s.dep := rfl
@[simp] theorem modBox_cairn (s : State) (m : Nat) (f : Mbox → Mbox) : (s.modBox m f).cairn = s.cairn := rfl
@[simp] theorem modBox_panel (s : State) (m : Nat) (f : Mbox → Mbox) : (s.modBox m f).panel = s.panel := rfl
@[simp] theorem modBox_draws (s : State) (m : Nat) (f : Mbox → Mbox) : (s.modBox m f).draws = s.draws := rfl
@[simp] theorem modBox_free (s : State) (m : Nat) (f : Mbox → Mbox) : (s.modBox m f).free = s.free := rfl

/-! ### modStack -/

@[simp] theorem modStack_pending (s : State) (k : Nat) (f : Stack → Stack) : (s.modStack k f).pending = s.pending := rfl
@[simp] theorem modStack_aon (s : State) (k : Nat) (f : Stack → Stack) : (s.modStack k f).aon = s.aon := rfl
@[simp] theorem modStack_out (s : State) (k : Nat) (f : Stack → Stack) : (s.modStack k f).out = s.out := rfl
@[simp] theorem modStack_stns (s : State) (k : Nat) (f : Stack → Stack) : (s.modStack k f).stns = s.stns := rfl
@[simp] theorem modStack_seams (s : State) (k : Nat) (f : Stack → Stack) : (s.modStack k f).seams = s.seams := rfl
@[simp] theorem modStack_trk (s : State) (k : Nat) (f : Stack → Stack) : (s.modStack k f).trk = s.trk := rfl
@[simp] theorem modStack_parcels (s : State) (k : Nat) (f : Stack → Stack) : (s.modStack k f).parcels = s.parcels := rfl
@[simp] theorem modStack_reqs (s : State) (k : Nat) (f : Stack → Stack) : (s.modStack k f).reqs = s.reqs := rfl
@[simp] theorem modStack_gates (s : State) (k : Nat) (f : Stack → Stack) : (s.modStack k f).gates = s.gates := rfl
@[simp] theorem modStack_adapts (s : State) (k : Nat) (f : Stack → Stack) : (s.modStack k f).adapts = s.adapts := rfl
@[simp] theorem modStack_duty (s : State) (k : Nat) (f : Stack → Stack) : (s.modStack k f).duty = s.duty := rfl
@[simp] theorem modStack_srvCtr (s : State) (k : Nat) (f : Stack → Stack) : (s.modStack k f).srvCtr = s.srvCtr := rfl
@[simp] theorem modStack_mbox (s : State) (k : Nat) (f : Stack → Stack) : (s.modStack k f).mbox = s.mbox := rfl
@[simp] theorem modStack_mboxCtr (s : State) (k : Nat) (f : Stack → Stack) : (s.modStack k f).mboxCtr = s.mboxCtr := rfl
@[simp] theorem modStack_presets (s : State) (k : Nat) (f : Stack → Stack) : (s.modStack k f).presets = s.presets := rfl
@[simp] theorem modStack_i3c (s : State) (k : Nat) (f : Stack → Stack) : (s.modStack k f).i3c = s.i3c := rfl
@[simp] theorem modStack_plan (s : State) (k : Nat) (f : Stack → Stack) : (s.modStack k f).plan = s.plan := rfl
@[simp] theorem modStack_modNum (s : State) (k : Nat) (f : Stack → Stack) : (s.modStack k f).modNum = s.modNum := rfl
@[simp] theorem modStack_sent (s : State) (k : Nat) (f : Stack → Stack) : (s.modStack k f).sent = s.sent := rfl
@[simp] theorem modStack_trvTag (s : State) (k : Nat) (f : Stack → Stack) : (s.modStack k f).trvTag = s.trvTag := rfl
@[simp] theorem modStack_trv (s : State) (k : Nat) (f : Stack → Stack) : (s.modStack k f).trv = s.trv := rfl
@[simp] theorem modStack_clk (s : State) (k : Nat) (f : Stack → Stack) : (s.modStack k f).clk = s.clk := rfl
@[simp] theorem modStack_pwr (s : State) (k : Nat) (f : Stack → Stack) : (s.modStack k f).pwr = s.pwr := rfl
@[simp] theorem modStack_sec (s : State) (k : Nat) (f : Stack → Stack) : (s.modStack k f).sec = s.sec := rfl
@[simp] theorem modStack_dep (s : State) (k : Nat) (f : Stack → Stack) : (s.modStack k f).dep = s.dep := rfl
@[simp] theorem modStack_cairn (s : State) (k : Nat) (f : Stack → Stack) : (s.modStack k f).cairn = s.cairn := rfl
@[simp] theorem modStack_panel (s : State) (k : Nat) (f : Stack → Stack) : (s.modStack k f).panel = s.panel := rfl
@[simp] theorem modStack_draws (s : State) (k : Nat) (f : Stack → Stack) : (s.modStack k f).draws = s.draws := rfl
@[simp] theorem modStack_free (s : State) (k : Nat) (f : Stack → Stack) : (s.modStack k f).free = s.free := rfl

/-! ### setEntry -/

@[simp] theorem setEntry_pending (s : State) (f t : Nat) (e : TrkEntry) : (s.setEntry f t e).pending = s.pending := rfl
@[simp] theorem setEntry_aon (s : State) (f t : Nat) (e : TrkEntry) : (s.setEntry f t e).aon = s.aon := rfl
@[simp] theorem setEntry_out (s : State) (f t : Nat) (e : TrkEntry) : (s.setEntry f t e).out = s.out := rfl
@[simp] theorem setEntry_stns (s : State) (f t : Nat) (e : TrkEntry) : (s.setEntry f t e).stns = s.stns := rfl
@[simp] theorem setEntry_mem (s : State) (f t : Nat) (e : TrkEntry) : (s.setEntry f t e).mem = s.mem := rfl
@[simp] theorem setEntry_seams (s : State) (f t : Nat) (e : TrkEntry) : (s.setEntry f t e).seams = s.seams := rfl
@[simp] theorem setEntry_parcels (s : State) (f t : Nat) (e : TrkEntry) : (s.setEntry f t e).parcels = s.parcels := rfl
@[simp] theorem setEntry_reqs (s : State) (f t : Nat) (e : TrkEntry) : (s.setEntry f t e).reqs = s.reqs := rfl
@[simp] theorem setEntry_gates (s : State) (f t : Nat) (e : TrkEntry) : (s.setEntry f t e).gates = s.gates := rfl
@[simp] theorem setEntry_adapts (s : State) (f t : Nat) (e : TrkEntry) : (s.setEntry f t e).adapts = s.adapts := rfl
@[simp] theorem setEntry_duty (s : State) (f t : Nat) (e : TrkEntry) : (s.setEntry f t e).duty = s.duty := rfl
@[simp] theorem setEntry_srvCtr (s : State) (f t : Nat) (e : TrkEntry) : (s.setEntry f t e).srvCtr = s.srvCtr := rfl
@[simp] theorem setEntry_mbox (s : State) (f t : Nat) (e : TrkEntry) : (s.setEntry f t e).mbox = s.mbox := rfl
@[simp] theorem setEntry_mboxCtr (s : State) (f t : Nat) (e : TrkEntry) : (s.setEntry f t e).mboxCtr = s.mboxCtr := rfl
@[simp] theorem setEntry_presets (s : State) (f t : Nat) (e : TrkEntry) : (s.setEntry f t e).presets = s.presets := rfl
@[simp] theorem setEntry_i3c (s : State) (f t : Nat) (e : TrkEntry) : (s.setEntry f t e).i3c = s.i3c := rfl
@[simp] theorem setEntry_plan (s : State) (f t : Nat) (e : TrkEntry) : (s.setEntry f t e).plan = s.plan := rfl
@[simp] theorem setEntry_modNum (s : State) (f t : Nat) (e : TrkEntry) : (s.setEntry f t e).modNum = s.modNum := rfl
@[simp] theorem setEntry_sent (s : State) (f t : Nat) (e : TrkEntry) : (s.setEntry f t e).sent = s.sent := rfl
@[simp] theorem setEntry_trvTag (s : State) (f t : Nat) (e : TrkEntry) : (s.setEntry f t e).trvTag = s.trvTag := rfl
@[simp] theorem setEntry_trv (s : State) (f t : Nat) (e : TrkEntry) : (s.setEntry f t e).trv = s.trv := rfl
@[simp] theorem setEntry_clk (s : State) (f t : Nat) (e : TrkEntry) : (s.setEntry f t e).clk = s.clk := rfl
@[simp] theorem setEntry_pwr (s : State) (f t : Nat) (e : TrkEntry) : (s.setEntry f t e).pwr = s.pwr := rfl
@[simp] theorem setEntry_sec (s : State) (f t : Nat) (e : TrkEntry) : (s.setEntry f t e).sec = s.sec := rfl
@[simp] theorem setEntry_dep (s : State) (f t : Nat) (e : TrkEntry) : (s.setEntry f t e).dep = s.dep := rfl
@[simp] theorem setEntry_cairn (s : State) (f t : Nat) (e : TrkEntry) : (s.setEntry f t e).cairn = s.cairn := rfl
@[simp] theorem setEntry_panel (s : State) (f t : Nat) (e : TrkEntry) : (s.setEntry f t e).panel = s.panel := rfl
@[simp] theorem setEntry_draws (s : State) (f t : Nat) (e : TrkEntry) : (s.setEntry f t e).draws = s.draws := rfl
@[simp] theorem setEntry_free (s : State) (f t : Nat) (e : TrkEntry) : (s.setEntry f t e).free = s.free := rfl

/-! ### emit -/

@[simp] theorem emit_pending (s : State) (o : Out) : (s.emit o).pending = s.pending := rfl
@[simp] theorem emit_aon (s : State) (o : Out) : (s.emit o).aon = s.aon := rfl
@[simp] theorem emit_stns (s : State) (o : Out) : (s.emit o).stns = s.stns := rfl
@[simp] theorem emit_mem (s : State) (o : Out) : (s.emit o).mem = s.mem := rfl
@[simp] theorem emit_seams (s : State) (o : Out) : (s.emit o).seams = s.seams := rfl
@[simp] theorem emit_trk (s : State) (o : Out) : (s.emit o).trk = s.trk := rfl
@[simp] theorem emit_parcels (s : State) (o : Out) : (s.emit o).parcels = s.parcels := rfl
@[simp] theorem emit_reqs (s : State) (o : Out) : (s.emit o).reqs = s.reqs := rfl
@[simp] theorem emit_gates (s : State) (o : Out) : (s.emit o).gates = s.gates := rfl
@[simp] theorem emit_adapts (s : State) (o : Out) : (s.emit o).adapts = s.adapts := rfl
@[simp] theorem emit_duty (s : State) (o : Out) : (s.emit o).duty = s.duty := rfl
@[simp] theorem emit_srvCtr (s : State) (o : Out) : (s.emit o).srvCtr = s.srvCtr := rfl
@[simp] theorem emit_mbox (s : State) (o : Out) : (s.emit o).mbox = s.mbox := rfl
@[simp] theorem emit_mboxCtr (s : State) (o : Out) : (s.emit o).mboxCtr = s.mboxCtr := rfl
@[simp] theorem emit_presets (s : State) (o : Out) : (s.emit o).presets = s.presets := rfl
@[simp] theorem emit_i3c (s : State) (o : Out) : (s.emit o).i3c = s.i3c := rfl
@[simp] theorem emit_plan (s : State) (o : Out) : (s.emit o).plan = s.plan := rfl
@[simp] theorem emit_modNum (s : State) (o : Out) : (s.emit o).modNum = s.modNum := rfl
@[simp] theorem emit_sent (s : State) (o : Out) : (s.emit o).sent = s.sent := rfl
@[simp] theorem emit_trvTag (s : State) (o : Out) : (s.emit o).trvTag = s.trvTag := rfl
@[simp] theorem emit_trv (s : State) (o : Out) : (s.emit o).trv = s.trv := rfl
@[simp] theorem emit_clk (s : State) (o : Out) : (s.emit o).clk = s.clk := rfl
@[simp] theorem emit_pwr (s : State) (o : Out) : (s.emit o).pwr = s.pwr := rfl
@[simp] theorem emit_sec (s : State) (o : Out) : (s.emit o).sec = s.sec := rfl
@[simp] theorem emit_dep (s : State) (o : Out) : (s.emit o).dep = s.dep := rfl
@[simp] theorem emit_cairn (s : State) (o : Out) : (s.emit o).cairn = s.cairn := rfl
@[simp] theorem emit_panel (s : State) (o : Out) : (s.emit o).panel = s.panel := rfl
@[simp] theorem emit_draws (s : State) (o : Out) : (s.emit o).draws = s.draws := rfl
@[simp] theorem emit_free (s : State) (o : Out) : (s.emit o).free = s.free := rfl

/-! ### memCount -/

@[simp] theorem memCount_pending (s : State) (k : Nat) (c : MC) (n : Nat) : (s.memCount k c n).pending = s.pending := rfl
@[simp] theorem memCount_aon (s : State) (k : Nat) (c : MC) (n : Nat) : (s.memCount k c n).aon = s.aon := rfl
@[simp] theorem memCount_out (s : State) (k : Nat) (c : MC) (n : Nat) : (s.memCount k c n).out = s.out := rfl
@[simp] theorem memCount_stns (s : State) (k : Nat) (c : MC) (n : Nat) : (s.memCount k c n).stns = s.stns := rfl
@[simp] theorem memCount_seams (s : State) (k : Nat) (c : MC) (n : Nat) : (s.memCount k c n).seams = s.seams := rfl
@[simp] theorem memCount_trk (s : State) (k : Nat) (c : MC) (n : Nat) : (s.memCount k c n).trk = s.trk := rfl
@[simp] theorem memCount_parcels (s : State) (k : Nat) (c : MC) (n : Nat) : (s.memCount k c n).parcels = s.parcels := rfl
@[simp] theorem memCount_reqs (s : State) (k : Nat) (c : MC) (n : Nat) : (s.memCount k c n).reqs = s.reqs := rfl
@[simp] theorem memCount_gates (s : State) (k : Nat) (c : MC) (n : Nat) : (s.memCount k c n).gates = s.gates := rfl
@[simp] theorem memCount_adapts (s : State) (k : Nat) (c : MC) (n : Nat) : (s.memCount k c n).adapts = s.adapts := rfl
@[simp] theorem memCount_duty (s : State) (k : Nat) (c : MC) (n : Nat) : (s.memCount k c n).duty = s.duty := rfl
@[simp] theorem memCount_srvCtr (s : State) (k : Nat) (c : MC) (n : Nat) : (s.memCount k c n).srvCtr = s.srvCtr := rfl
@[simp] theorem memCount_mbox (s : State) (k : Nat) (c : MC) (n : Nat) : (s.memCount k c n).mbox = s.mbox := rfl
@[simp] theorem memCount_mboxCtr (s : State) (k : Nat) (c : MC) (n : Nat) : (s.memCount k c n).mboxCtr = s.mboxCtr := rfl
@[simp] theorem memCount_presets (s : State) (k : Nat) (c : MC) (n : Nat) : (s.memCount k c n).presets = s.presets := rfl
@[simp] theorem memCount_i3c (s : State) (k : Nat) (c : MC) (n : Nat) : (s.memCount k c n).i3c = s.i3c := rfl
@[simp] theorem memCount_plan (s : State) (k : Nat) (c : MC) (n : Nat) : (s.memCount k c n).plan = s.plan := rfl
@[simp] theorem memCount_modNum (s : State) (k : Nat) (c : MC) (n : Nat) : (s.memCount k c n).modNum = s.modNum := rfl
@[simp] theorem memCount_sent (s : State) (k : Nat) (c : MC) (n : Nat) : (s.memCount k c n).sent = s.sent := rfl
@[simp] theorem memCount_trvTag (s : State) (k : Nat) (c : MC) (n : Nat) : (s.memCount k c n).trvTag = s.trvTag := rfl
@[simp] theorem memCount_trv (s : State) (k : Nat) (c : MC) (n : Nat) : (s.memCount k c n).trv = s.trv := rfl
@[simp] theorem memCount_clk (s : State) (k : Nat) (c : MC) (n : Nat) : (s.memCount k c n).clk = s.clk := rfl
@[simp] theorem memCount_pwr (s : State) (k : Nat) (c : MC) (n : Nat) : (s.memCount k c n).pwr = s.pwr := rfl
@[simp] theorem memCount_sec (s : State) (k : Nat) (c : MC) (n : Nat) : (s.memCount k c n).sec = s.sec := rfl
@[simp] theorem memCount_dep (s : State) (k : Nat) (c : MC) (n : Nat) : (s.memCount k c n).dep = s.dep := rfl
@[simp] theorem memCount_cairn (s : State) (k : Nat) (c : MC) (n : Nat) : (s.memCount k c n).cairn = s.cairn := rfl
@[simp] theorem memCount_panel (s : State) (k : Nat) (c : MC) (n : Nat) : (s.memCount k c n).panel = s.panel := rfl
@[simp] theorem memCount_draws (s : State) (k : Nat) (c : MC) (n : Nat) : (s.memCount k c n).draws = s.draws := rfl
@[simp] theorem memCount_free (s : State) (k : Nat) (c : MC) (n : Nat) : (s.memCount k c n).free = s.free := rfl

/-! ### trkCount -/

@[simp] theorem trkCount_pending (s : State) (f : Nat) (c : TC) (n : Nat) : (s.trkCount f c n).pending = s.pending := rfl
@[simp] theorem trkCount_aon (s : State) (f : Nat) (c : TC) (n : Nat) : (s.trkCount f c n).aon = s.aon := rfl
@[simp] theorem trkCount_out (s : State) (f : Nat) (c : TC) (n : Nat) : (s.trkCount f c n).out = s.out := rfl
@[simp] theorem trkCount_stns (s : State) (f : Nat) (c : TC) (n : Nat) : (s.trkCount f c n).stns = s.stns := rfl
@[simp] theorem trkCount_mem (s : State) (f : Nat) (c : TC) (n : Nat) : (s.trkCount f c n).mem = s.mem := rfl
@[simp] theorem trkCount_seams (s : State) (f : Nat) (c : TC) (n : Nat) : (s.trkCount f c n).seams = s.seams := rfl
@[simp] theorem trkCount_parcels (s : State) (f : Nat) (c : TC) (n : Nat) : (s.trkCount f c n).parcels = s.parcels := rfl
@[simp] theorem trkCount_reqs (s : State) (f : Nat) (c : TC) (n : Nat) : (s.trkCount f c n).reqs = s.reqs := rfl
@[simp] theorem trkCount_gates (s : State) (f : Nat) (c : TC) (n : Nat) : (s.trkCount f c n).gates = s.gates := rfl
@[simp] theorem trkCount_adapts (s : State) (f : Nat) (c : TC) (n : Nat) : (s.trkCount f c n).adapts = s.adapts := rfl
@[simp] theorem trkCount_duty (s : State) (f : Nat) (c : TC) (n : Nat) : (s.trkCount f c n).duty = s.duty := rfl
@[simp] theorem trkCount_srvCtr (s : State) (f : Nat) (c : TC) (n : Nat) : (s.trkCount f c n).srvCtr = s.srvCtr := rfl
@[simp] theorem trkCount_mbox (s : State) (f : Nat) (c : TC) (n : Nat) : (s.trkCount f c n).mbox = s.mbox := rfl
@[simp] theorem trkCount_mboxCtr (s : State) (f : Nat) (c : TC) (n : Nat) : (s.trkCount f c n).mboxCtr = s.mboxCtr := rfl
@[simp] theorem trkCount_presets (s : State) (f : Nat) (c : TC) (n : Nat) : (s.trkCount f c n).presets = s.presets := rfl
@[simp] theorem trkCount_i3c (s : State) (f : Nat) (c : TC) (n : Nat) : (s.trkCount f c n).i3c = s.i3c := rfl
@[simp] theorem trkCount_plan (s : State) (f : Nat) (c : TC) (n : Nat) : (s.trkCount f c n).plan = s.plan := rfl
@[simp] theorem trkCount_modNum (s : State) (f : Nat) (c : TC) (n : Nat) : (s.trkCount f c n).modNum = s.modNum := rfl
@[simp] theorem trkCount_sent (s : State) (f : Nat) (c : TC) (n : Nat) : (s.trkCount f c n).sent = s.sent := rfl
@[simp] theorem trkCount_trvTag (s : State) (f : Nat) (c : TC) (n : Nat) : (s.trkCount f c n).trvTag = s.trvTag := rfl
@[simp] theorem trkCount_trv (s : State) (f : Nat) (c : TC) (n : Nat) : (s.trkCount f c n).trv = s.trv := rfl
@[simp] theorem trkCount_clk (s : State) (f : Nat) (c : TC) (n : Nat) : (s.trkCount f c n).clk = s.clk := rfl
@[simp] theorem trkCount_pwr (s : State) (f : Nat) (c : TC) (n : Nat) : (s.trkCount f c n).pwr = s.pwr := rfl
@[simp] theorem trkCount_sec (s : State) (f : Nat) (c : TC) (n : Nat) : (s.trkCount f c n).sec = s.sec := rfl
@[simp] theorem trkCount_dep (s : State) (f : Nat) (c : TC) (n : Nat) : (s.trkCount f c n).dep = s.dep := rfl
@[simp] theorem trkCount_cairn (s : State) (f : Nat) (c : TC) (n : Nat) : (s.trkCount f c n).cairn = s.cairn := rfl
@[simp] theorem trkCount_panel (s : State) (f : Nat) (c : TC) (n : Nat) : (s.trkCount f c n).panel = s.panel := rfl
@[simp] theorem trkCount_draws (s : State) (f : Nat) (c : TC) (n : Nat) : (s.trkCount f c n).draws = s.draws := rfl
@[simp] theorem trkCount_free (s : State) (f : Nat) (c : TC) (n : Nat) : (s.trkCount f c n).free = s.free := rfl

/-! ### boxCount -/

@[simp] theorem boxCount_pending (s : State) (m : Nat) (c : BC) (n : Nat) : (s.boxCount m c n).pending = s.pending := rfl
@[simp] theorem boxCount_aon (s : State) (m : Nat) (c : BC) (n : Nat) : (s.boxCount m c n).aon = s.aon := rfl
@[simp] theorem boxCount_out (s : State) (m : Nat) (c : BC) (n : Nat) : (s.boxCount m c n).out = s.out := rfl
@[simp] theorem boxCount_stns (s : State) (m : Nat) (c : BC) (n : Nat) : (s.boxCount m c n).stns = s.stns := rfl
@[simp] theorem boxCount_mem (s : State) (m : Nat) (c : BC) (n : Nat) : (s.boxCount m c n).mem = s.mem := rfl
@[simp] theorem boxCount_seams (s : State) (m : Nat) (c : BC) (n : Nat) : (s.boxCount m c n).seams = s.seams := rfl
@[simp] theorem boxCount_trk (s : State) (m : Nat) (c : BC) (n : Nat) : (s.boxCount m c n).trk = s.trk := rfl
@[simp] theorem boxCount_parcels (s : State) (m : Nat) (c : BC) (n : Nat) : (s.boxCount m c n).parcels = s.parcels := rfl
@[simp] theorem boxCount_reqs (s : State) (m : Nat) (c : BC) (n : Nat) : (s.boxCount m c n).reqs = s.reqs := rfl
@[simp] theorem boxCount_gates (s : State) (m : Nat) (c : BC) (n : Nat) : (s.boxCount m c n).gates = s.gates := rfl
@[simp] theorem boxCount_adapts (s : State) (m : Nat) (c : BC) (n : Nat) : (s.boxCount m c n).adapts = s.adapts := rfl
@[simp] theorem boxCount_duty (s : State) (m : Nat) (c : BC) (n : Nat) : (s.boxCount m c n).duty = s.duty := rfl
@[simp] theorem boxCount_srvCtr (s : State) (m : Nat) (c : BC) (n : Nat) : (s.boxCount m c n).srvCtr = s.srvCtr := rfl
@[simp] theorem boxCount_mbox (s : State) (m : Nat) (c : BC) (n : Nat) : (s.boxCount m c n).mbox = s.mbox := rfl
@[simp] theorem boxCount_presets (s : State) (m : Nat) (c : BC) (n : Nat) : (s.boxCount m c n).presets = s.presets := rfl
@[simp] theorem boxCount_i3c (s : State) (m : Nat) (c : BC) (n : Nat) : (s.boxCount m c n).i3c = s.i3c := rfl
@[simp] theorem boxCount_plan (s : State) (m : Nat) (c : BC) (n : Nat) : (s.boxCount m c n).plan = s.plan := rfl
@[simp] theorem boxCount_modNum (s : State) (m : Nat) (c : BC) (n : Nat) : (s.boxCount m c n).modNum = s.modNum := rfl
@[simp] theorem boxCount_sent (s : State) (m : Nat) (c : BC) (n : Nat) : (s.boxCount m c n).sent = s.sent := rfl
@[simp] theorem boxCount_trvTag (s : State) (m : Nat) (c : BC) (n : Nat) : (s.boxCount m c n).trvTag = s.trvTag := rfl
@[simp] theorem boxCount_trv (s : State) (m : Nat) (c : BC) (n : Nat) : (s.boxCount m c n).trv = s.trv := rfl
@[simp] theorem boxCount_clk (s : State) (m : Nat) (c : BC) (n : Nat) : (s.boxCount m c n).clk = s.clk := rfl
@[simp] theorem boxCount_pwr (s : State) (m : Nat) (c : BC) (n : Nat) : (s.boxCount m c n).pwr = s.pwr := rfl
@[simp] theorem boxCount_sec (s : State) (m : Nat) (c : BC) (n : Nat) : (s.boxCount m c n).sec = s.sec := rfl
@[simp] theorem boxCount_dep (s : State) (m : Nat) (c : BC) (n : Nat) : (s.boxCount m c n).dep = s.dep := rfl
@[simp] theorem boxCount_cairn (s : State) (m : Nat) (c : BC) (n : Nat) : (s.boxCount m c n).cairn = s.cairn := rfl
@[simp] theorem boxCount_panel (s : State) (m : Nat) (c : BC) (n : Nat) : (s.boxCount m c n).panel = s.panel := rfl
@[simp] theorem boxCount_draws (s : State) (m : Nat) (c : BC) (n : Nat) : (s.boxCount m c n).draws = s.draws := rfl
@[simp] theorem boxCount_free (s : State) (m : Nat) (c : BC) (n : Nat) : (s.boxCount m c n).free = s.free := rfl

/-! ### srvCount -/

@[simp] theorem srvCount_pending (s : State) (i : Nat) (c : GC) (n : Nat) : (s.srvCount i c n).pending = s.pending := rfl
@[simp] theorem srvCount_aon (s : State) (i : Nat) (c : GC) (n : Nat) : (s.srvCount i c n).aon = s.aon := rfl
@[simp] theorem srvCount_out (s : State) (i : Nat) (c : GC) (n : Nat) : (s.srvCount i c n).out = s.out := rfl
@[simp] theorem srvCount_stns (s : State) (i : Nat) (c : GC) (n : Nat) : (s.srvCount i c n).stns = s.stns := rfl
@[simp] theorem srvCount_mem (s : State) (i : Nat) (c : GC) (n : Nat) : (s.srvCount i c n).mem = s.mem := rfl
@[simp] theorem srvCount_seams (s : State) (i : Nat) (c : GC) (n : Nat) : (s.srvCount i c n).seams = s.seams := rfl
@[simp] theorem srvCount_trk (s : State) (i : Nat) (c : GC) (n : Nat) : (s.srvCount i c n).trk = s.trk := rfl
@[simp] theorem srvCount_parcels (s : State) (i : Nat) (c : GC) (n : Nat) : (s.srvCount i c n).parcels = s.parcels := rfl
@[simp] theorem srvCount_reqs (s : State) (i : Nat) (c : GC) (n : Nat) : (s.srvCount i c n).reqs = s.reqs := rfl
@[simp] theorem srvCount_gates (s : State) (i : Nat) (c : GC) (n : Nat) : (s.srvCount i c n).gates = s.gates := rfl
@[simp] theorem srvCount_adapts (s : State) (i : Nat) (c : GC) (n : Nat) : (s.srvCount i c n).adapts = s.adapts := rfl
@[simp] theorem srvCount_duty (s : State) (i : Nat) (c : GC) (n : Nat) : (s.srvCount i c n).duty = s.duty := rfl
@[simp] theorem srvCount_mbox (s : State) (i : Nat) (c : GC) (n : Nat) : (s.srvCount i c n).mbox = s.mbox := rfl
@[simp] theorem srvCount_mboxCtr (s : State) (i : Nat) (c : GC) (n : Nat) : (s.srvCount i c n).mboxCtr = s.mboxCtr := rfl
@[simp] theorem srvCount_presets (s : State) (i : Nat) (c : GC) (n : Nat) : (s.srvCount i c n).presets = s.presets := rfl
@[simp] theorem srvCount_i3c (s : State) (i : Nat) (c : GC) (n : Nat) : (s.srvCount i c n).i3c = s.i3c := rfl
@[simp] theorem srvCount_plan (s : State) (i : Nat) (c : GC) (n : Nat) : (s.srvCount i c n).plan = s.plan := rfl
@[simp] theorem srvCount_modNum (s : State) (i : Nat) (c : GC) (n : Nat) : (s.srvCount i c n).modNum = s.modNum := rfl
@[simp] theorem srvCount_sent (s : State) (i : Nat) (c : GC) (n : Nat) : (s.srvCount i c n).sent = s.sent := rfl
@[simp] theorem srvCount_trvTag (s : State) (i : Nat) (c : GC) (n : Nat) : (s.srvCount i c n).trvTag = s.trvTag := rfl
@[simp] theorem srvCount_trv (s : State) (i : Nat) (c : GC) (n : Nat) : (s.srvCount i c n).trv = s.trv := rfl
@[simp] theorem srvCount_clk (s : State) (i : Nat) (c : GC) (n : Nat) : (s.srvCount i c n).clk = s.clk := rfl
@[simp] theorem srvCount_pwr (s : State) (i : Nat) (c : GC) (n : Nat) : (s.srvCount i c n).pwr = s.pwr := rfl
@[simp] theorem srvCount_sec (s : State) (i : Nat) (c : GC) (n : Nat) : (s.srvCount i c n).sec = s.sec := rfl
@[simp] theorem srvCount_dep (s : State) (i : Nat) (c : GC) (n : Nat) : (s.srvCount i c n).dep = s.dep := rfl
@[simp] theorem srvCount_cairn (s : State) (i : Nat) (c : GC) (n : Nat) : (s.srvCount i c n).cairn = s.cairn := rfl
@[simp] theorem srvCount_panel (s : State) (i : Nat) (c : GC) (n : Nat) : (s.srvCount i c n).panel = s.panel := rfl
@[simp] theorem srvCount_draws (s : State) (i : Nat) (c : GC) (n : Nat) : (s.srvCount i c n).draws = s.draws := rfl
@[simp] theorem srvCount_free (s : State) (i : Nat) (c : GC) (n : Nat) : (s.srvCount i c n).free = s.free := rfl

/-! ### modCount -/

@[simp] theorem modCount_pending (s : State) (c : PC) (n : Nat) : (s.modCount c n).pending = s.pending := rfl
@[simp] theorem modCount_aon (s : State) (c : PC) (n : Nat) : (s.modCount c n).aon = s.aon := rfl
@[simp] theorem modCount_out (s : State) (c : PC) (n : Nat) : (s.modCount c n).out = s.out := rfl
@[simp] theorem modCount_stns (s : State) (c : PC) (n : Nat) : (s.modCount c n).stns = s.stns := rfl
@[simp] theorem modCount_mem (s : State) (c : PC) (n : Nat) : (s.modCount c n).mem = s.mem := rfl
@[simp] theorem modCount_seams (s : State) (c : PC) (n : Nat) : (s.modCount c n).seams = s.seams := rfl
@[simp] theorem modCount_trk (s : State) (c : PC) (n : Nat) : (s.modCount c n).trk = s.trk := rfl
@[simp] theorem modCount_parcels (s : State) (c : PC) (n : Nat) : (s.modCount c n).parcels = s.parcels := rfl
@[simp] theorem modCount_reqs (s : State) (c : PC) (n : Nat) : (s.modCount c n).reqs = s.reqs := rfl
@[simp] theorem modCount_gates (s : State) (c : PC) (n : Nat) : (s.modCount c n).gates = s.gates := rfl
@[simp] theorem modCount_adapts (s : State) (c : PC) (n : Nat) : (s.modCount c n).adapts = s.adapts := rfl
@[simp] theorem modCount_duty (s : State) (c : PC) (n : Nat) : (s.modCount c n).duty = s.duty := rfl
@[simp] theorem modCount_srvCtr (s : State) (c : PC) (n : Nat) : (s.modCount c n).srvCtr = s.srvCtr := rfl
@[simp] theorem modCount_mbox (s : State) (c : PC) (n : Nat) : (s.modCount c n).mbox = s.mbox := rfl
@[simp] theorem modCount_mboxCtr (s : State) (c : PC) (n : Nat) : (s.modCount c n).mboxCtr = s.mboxCtr := rfl
@[simp] theorem modCount_presets (s : State) (c : PC) (n : Nat) : (s.modCount c n).presets = s.presets := rfl
@[simp] theorem modCount_i3c (s : State) (c : PC) (n : Nat) : (s.modCount c n).i3c = s.i3c := rfl
@[simp] theorem modCount_plan (s : State) (c : PC) (n : Nat) : (s.modCount c n).plan = s.plan := rfl
@[simp] theorem modCount_modNum (s : State) (c : PC) (n : Nat) : (s.modCount c n).modNum = s.modNum := rfl
@[simp] theorem modCount_sent (s : State) (c : PC) (n : Nat) : (s.modCount c n).sent = s.sent := rfl
@[simp] theorem modCount_trvTag (s : State) (c : PC) (n : Nat) : (s.modCount c n).trvTag = s.trvTag := rfl
@[simp] theorem modCount_trv (s : State) (c : PC) (n : Nat) : (s.modCount c n).trv = s.trv := rfl
@[simp] theorem modCount_clk (s : State) (c : PC) (n : Nat) : (s.modCount c n).clk = s.clk := rfl
@[simp] theorem modCount_sec (s : State) (c : PC) (n : Nat) : (s.modCount c n).sec = s.sec := rfl
@[simp] theorem modCount_dep (s : State) (c : PC) (n : Nat) : (s.modCount c n).dep = s.dep := rfl
@[simp] theorem modCount_cairn (s : State) (c : PC) (n : Nat) : (s.modCount c n).cairn = s.cairn := rfl
@[simp] theorem modCount_panel (s : State) (c : PC) (n : Nat) : (s.modCount c n).panel = s.panel := rfl
@[simp] theorem modCount_draws (s : State) (c : PC) (n : Nat) : (s.modCount c n).draws = s.draws := rfl
@[simp] theorem modCount_free (s : State) (c : PC) (n : Nat) : (s.modCount c n).free = s.free := rfl

/-! ### setSpow -/

@[simp] theorem setSpow_pending (s : State) (n : Nat) (p : SPow) : (s.setSpow n p).pending = s.pending := rfl
@[simp] theorem setSpow_aon (s : State) (n : Nat) (p : SPow) : (s.setSpow n p).aon = s.aon := rfl
@[simp] theorem setSpow_out (s : State) (n : Nat) (p : SPow) : (s.setSpow n p).out = s.out := rfl
@[simp] theorem setSpow_stns (s : State) (n : Nat) (p : SPow) : (s.setSpow n p).stns = s.stns := rfl
@[simp] theorem setSpow_mem (s : State) (n : Nat) (p : SPow) : (s.setSpow n p).mem = s.mem := rfl
@[simp] theorem setSpow_seams (s : State) (n : Nat) (p : SPow) : (s.setSpow n p).seams = s.seams := rfl
@[simp] theorem setSpow_trk (s : State) (n : Nat) (p : SPow) : (s.setSpow n p).trk = s.trk := rfl
@[simp] theorem setSpow_parcels (s : State) (n : Nat) (p : SPow) : (s.setSpow n p).parcels = s.parcels := rfl
@[simp] theorem setSpow_reqs (s : State) (n : Nat) (p : SPow) : (s.setSpow n p).reqs = s.reqs := rfl
@[simp] theorem setSpow_gates (s : State) (n : Nat) (p : SPow) : (s.setSpow n p).gates = s.gates := rfl
@[simp] theorem setSpow_adapts (s : State) (n : Nat) (p : SPow) : (s.setSpow n p).adapts = s.adapts := rfl
@[simp] theorem setSpow_duty (s : State) (n : Nat) (p : SPow) : (s.setSpow n p).duty = s.duty := rfl
@[simp] theorem setSpow_srvCtr (s : State) (n : Nat) (p : SPow) : (s.setSpow n p).srvCtr = s.srvCtr := rfl
@[simp] theorem setSpow_mbox (s : State) (n : Nat) (p : SPow) : (s.setSpow n p).mbox = s.mbox := rfl
@[simp] theorem setSpow_mboxCtr (s : State) (n : Nat) (p : SPow) : (s.setSpow n p).mboxCtr = s.mboxCtr := rfl
@[simp] theorem setSpow_presets (s : State) (n : Nat) (p : SPow) : (s.setSpow n p).presets = s.presets := rfl
@[simp] theorem setSpow_i3c (s : State) (n : Nat) (p : SPow) : (s.setSpow n p).i3c = s.i3c := rfl
@[simp] theorem setSpow_plan (s : State) (n : Nat) (p : SPow) : (s.setSpow n p).plan = s.plan := rfl
@[simp] theorem setSpow_modNum (s : State) (n : Nat) (p : SPow) : (s.setSpow n p).modNum = s.modNum := rfl
@[simp] theorem setSpow_sent (s : State) (n : Nat) (p : SPow) : (s.setSpow n p).sent = s.sent := rfl
@[simp] theorem setSpow_trvTag (s : State) (n : Nat) (p : SPow) : (s.setSpow n p).trvTag = s.trvTag := rfl
@[simp] theorem setSpow_trv (s : State) (n : Nat) (p : SPow) : (s.setSpow n p).trv = s.trv := rfl
@[simp] theorem setSpow_clk (s : State) (n : Nat) (p : SPow) : (s.setSpow n p).clk = s.clk := rfl
@[simp] theorem setSpow_sec (s : State) (n : Nat) (p : SPow) : (s.setSpow n p).sec = s.sec := rfl
@[simp] theorem setSpow_dep (s : State) (n : Nat) (p : SPow) : (s.setSpow n p).dep = s.dep := rfl
@[simp] theorem setSpow_cairn (s : State) (n : Nat) (p : SPow) : (s.setSpow n p).cairn = s.cairn := rfl
@[simp] theorem setSpow_panel (s : State) (n : Nat) (p : SPow) : (s.setSpow n p).panel = s.panel := rfl
@[simp] theorem setSpow_draws (s : State) (n : Nat) (p : SPow) : (s.setSpow n p).draws = s.draws := rfl
@[simp] theorem setSpow_free (s : State) (n : Nat) (p : SPow) : (s.setSpow n p).free = s.free := rfl

/-! ### modLink -/

@[simp] theorem modLink_pending (s : State) (k : Nat) (f : TLink → TLink) : (s.modLink k f).pending = s.pending := rfl
@[simp] theorem modLink_aon (s : State) (k : Nat) (f : TLink → TLink) : (s.modLink k f).aon = s.aon := rfl
@[simp] theorem modLink_out (s : State) (k : Nat) (f : TLink → TLink) : (s.modLink k f).out = s.out := rfl
@[simp] theorem modLink_stns (s : State) (k : Nat) (f : TLink → TLink) : (s.modLink k f).stns = s.stns := rfl
@[simp] theorem modLink_mem (s : State) (k : Nat) (f : TLink → TLink) : (s.modLink k f).mem = s.mem := rfl
@[simp] theorem modLink_seams (s : State) (k : Nat) (f : TLink → TLink) : (s.modLink k f).seams = s.seams := rfl
@[simp] theorem modLink_trk (s : State) (k : Nat) (f : TLink → TLink) : (s.modLink k f).trk = s.trk := rfl
@[simp] theorem modLink_parcels (s : State) (k : Nat) (f : TLink → TLink) : (s.modLink k f).parcels = s.parcels := rfl
@[simp] theorem modLink_reqs (s : State) (k : Nat) (f : TLink → TLink) : (s.modLink k f).reqs = s.reqs := rfl
@[simp] theorem modLink_gates (s : State) (k : Nat) (f : TLink → TLink) : (s.modLink k f).gates = s.gates := rfl
@[simp] theorem modLink_adapts (s : State) (k : Nat) (f : TLink → TLink) : (s.modLink k f).adapts = s.adapts := rfl
@[simp] theorem modLink_duty (s : State) (k : Nat) (f : TLink → TLink) : (s.modLink k f).duty = s.duty := rfl
@[simp] theorem modLink_srvCtr (s : State) (k : Nat) (f : TLink → TLink) : (s.modLink k f).srvCtr = s.srvCtr := rfl
@[simp] theorem modLink_mbox (s : State) (k : Nat) (f : TLink → TLink) : (s.modLink k f).mbox = s.mbox := rfl
@[simp] theorem modLink_mboxCtr (s : State) (k : Nat) (f : TLink → TLink) : (s.modLink k f).mboxCtr = s.mboxCtr := rfl
@[simp] theorem modLink_presets (s : State) (k : Nat) (f : TLink → TLink) : (s.modLink k f).presets = s.presets := rfl
@[simp] theorem modLink_i3c (s : State) (k : Nat) (f : TLink → TLink) : (s.modLink k f).i3c = s.i3c := rfl
@[simp] theorem modLink_plan (s : State) (k : Nat) (f : TLink → TLink) : (s.modLink k f).plan = s.plan := rfl
@[simp] theorem modLink_modNum (s : State) (k : Nat) (f : TLink → TLink) : (s.modLink k f).modNum = s.modNum := rfl
@[simp] theorem modLink_sent (s : State) (k : Nat) (f : TLink → TLink) : (s.modLink k f).sent = s.sent := rfl
@[simp] theorem modLink_trvTag (s : State) (k : Nat) (f : TLink → TLink) : (s.modLink k f).trvTag = s.trvTag := rfl
@[simp] theorem modLink_clk (s : State) (k : Nat) (f : TLink → TLink) : (s.modLink k f).clk = s.clk := rfl
@[simp] theorem modLink_pwr (s : State) (k : Nat) (f : TLink → TLink) : (s.modLink k f).pwr = s.pwr := rfl
@[simp] theorem modLink_sec (s : State) (k : Nat) (f : TLink → TLink) : (s.modLink k f).sec = s.sec := rfl
@[simp] theorem modLink_dep (s : State) (k : Nat) (f : TLink → TLink) : (s.modLink k f).dep = s.dep := rfl
@[simp] theorem modLink_cairn (s : State) (k : Nat) (f : TLink → TLink) : (s.modLink k f).cairn = s.cairn := rfl
@[simp] theorem modLink_panel (s : State) (k : Nat) (f : TLink → TLink) : (s.modLink k f).panel = s.panel := rfl
@[simp] theorem modLink_draws (s : State) (k : Nat) (f : TLink → TLink) : (s.modLink k f).draws = s.draws := rfl
@[simp] theorem modLink_free (s : State) (k : Nat) (f : TLink → TLink) : (s.modLink k f).free = s.free := rfl

/-! ### modPort -/

@[simp] theorem modPort_pending (s : State) (p : Nat) (f : TPort → TPort) : (s.modPort p f).pending = s.pending := rfl
@[simp] theorem modPort_aon (s : State) (p : Nat) (f : TPort → TPort) : (s.modPort p f).aon = s.aon := rfl
@[simp] theorem modPort_out (s : State) (p : Nat) (f : TPort → TPort) : (s.modPort p f).out = s.out := rfl
@[simp] theorem modPort_stns (s : State) (p : Nat) (f : TPort → TPort) : (s.modPort p f).stns = s.stns := rfl
@[simp] theorem modPort_mem (s : State) (p : Nat) (f : TPort → TPort) : (s.modPort p f).mem = s.mem := rfl
@[simp] theorem modPort_seams (s : State) (p : Nat) (f : TPort → TPort) : (s.modPort p f).seams = s.seams := rfl
@[simp] theorem modPort_trk (s : State) (p : Nat) (f : TPort → TPort) : (s.modPort p f).trk = s.trk := rfl
@[simp] theorem modPort_parcels (s : State) (p : Nat) (f : TPort → TPort) : (s.modPort p f).parcels = s.parcels := rfl
@[simp] theorem modPort_reqs (s : State) (p : Nat) (f : TPort → TPort) : (s.modPort p f).reqs = s.reqs := rfl
@[simp] theorem modPort_gates (s : State) (p : Nat) (f : TPort → TPort) : (s.modPort p f).gates = s.gates := rfl
@[simp] theorem modPort_adapts (s : State) (p : Nat) (f : TPort → TPort) : (s.modPort p f).adapts = s.adapts := rfl
@[simp] theorem modPort_duty (s : State) (p : Nat) (f : TPort → TPort) : (s.modPort p f).duty = s.duty := rfl
@[simp] theorem modPort_srvCtr (s : State) (p : Nat) (f : TPort → TPort) : (s.modPort p f).srvCtr = s.srvCtr := rfl
@[simp] theorem modPort_mbox (s : State) (p : Nat) (f : TPort → TPort) : (s.modPort p f).mbox = s.mbox := rfl
@[simp] theorem modPort_mboxCtr (s : State) (p : Nat) (f : TPort → TPort) : (s.modPort p f).mboxCtr = s.mboxCtr := rfl
@[simp] theorem modPort_presets (s : State) (p : Nat) (f : TPort → TPort) : (s.modPort p f).presets = s.presets := rfl
@[simp] theorem modPort_i3c (s : State) (p : Nat) (f : TPort → TPort) : (s.modPort p f).i3c = s.i3c := rfl
@[simp] theorem modPort_plan (s : State) (p : Nat) (f : TPort → TPort) : (s.modPort p f).plan = s.plan := rfl
@[simp] theorem modPort_modNum (s : State) (p : Nat) (f : TPort → TPort) : (s.modPort p f).modNum = s.modNum := rfl
@[simp] theorem modPort_sent (s : State) (p : Nat) (f : TPort → TPort) : (s.modPort p f).sent = s.sent := rfl
@[simp] theorem modPort_trvTag (s : State) (p : Nat) (f : TPort → TPort) : (s.modPort p f).trvTag = s.trvTag := rfl
@[simp] theorem modPort_clk (s : State) (p : Nat) (f : TPort → TPort) : (s.modPort p f).clk = s.clk := rfl
@[simp] theorem modPort_pwr (s : State) (p : Nat) (f : TPort → TPort) : (s.modPort p f).pwr = s.pwr := rfl
@[simp] theorem modPort_sec (s : State) (p : Nat) (f : TPort → TPort) : (s.modPort p f).sec = s.sec := rfl
@[simp] theorem modPort_dep (s : State) (p : Nat) (f : TPort → TPort) : (s.modPort p f).dep = s.dep := rfl
@[simp] theorem modPort_cairn (s : State) (p : Nat) (f : TPort → TPort) : (s.modPort p f).cairn = s.cairn := rfl
@[simp] theorem modPort_panel (s : State) (p : Nat) (f : TPort → TPort) : (s.modPort p f).panel = s.panel := rfl
@[simp] theorem modPort_draws (s : State) (p : Nat) (f : TPort → TPort) : (s.modPort p f).draws = s.draws := rfl
@[simp] theorem modPort_free (s : State) (p : Nat) (f : TPort → TPort) : (s.modPort p f).free = s.free := rfl

/-! ### linkCount -/

@[simp] theorem linkCount_pending (s : State) (k : Nat) (c : VC) (n : Nat) : (s.linkCount k c n).pending = s.pending := rfl
@[simp] theorem linkCount_aon (s : State) (k : Nat) (c : VC) (n : Nat) : (s.linkCount k c n).aon = s.aon := rfl
@[simp] theorem linkCount_out (s : State) (k : Nat) (c : VC) (n : Nat) : (s.linkCount k c n).out = s.out := rfl
@[simp] theorem linkCount_stns (s : State) (k : Nat) (c : VC) (n : Nat) : (s.linkCount k c n).stns = s.stns := rfl
@[simp] theorem linkCount_mem (s : State) (k : Nat) (c : VC) (n : Nat) : (s.linkCount k c n).mem = s.mem := rfl
@[simp] theorem linkCount_seams (s : State) (k : Nat) (c : VC) (n : Nat) : (s.linkCount k c n).seams = s.seams := rfl
@[simp] theorem linkCount_trk (s : State) (k : Nat) (c : VC) (n : Nat) : (s.linkCount k c n).trk = s.trk := rfl
@[simp] theorem linkCount_parcels (s : State) (k : Nat) (c : VC) (n : Nat) : (s.linkCount k c n).parcels = s.parcels := rfl
@[simp] theorem linkCount_reqs (s : State) (k : Nat) (c : VC) (n : Nat) : (s.linkCount k c n).reqs = s.reqs := rfl
@[simp] theorem linkCount_gates (s : State) (k : Nat) (c : VC) (n : Nat) : (s.linkCount k c n).gates = s.gates := rfl
@[simp] theorem linkCount_adapts (s : State) (k : Nat) (c : VC) (n : Nat) : (s.linkCount k c n).adapts = s.adapts := rfl
@[simp] theorem linkCount_duty (s : State) (k : Nat) (c : VC) (n : Nat) : (s.linkCount k c n).duty = s.duty := rfl
@[simp] theorem linkCount_srvCtr (s : State) (k : Nat) (c : VC) (n : Nat) : (s.linkCount k c n).srvCtr = s.srvCtr := rfl
@[simp] theorem linkCount_mbox (s : State) (k : Nat) (c : VC) (n : Nat) : (s.linkCount k c n).mbox = s.mbox := rfl
@[simp] theorem linkCount_mboxCtr (s : State) (k : Nat) (c : VC) (n : Nat) : (s.linkCount k c n).mboxCtr = s.mboxCtr := rfl
@[simp] theorem linkCount_presets (s : State) (k : Nat) (c : VC) (n : Nat) : (s.linkCount k c n).presets = s.presets := rfl
@[simp] theorem linkCount_i3c (s : State) (k : Nat) (c : VC) (n : Nat) : (s.linkCount k c n).i3c = s.i3c := rfl
@[simp] theorem linkCount_plan (s : State) (k : Nat) (c : VC) (n : Nat) : (s.linkCount k c n).plan = s.plan := rfl
@[simp] theorem linkCount_modNum (s : State) (k : Nat) (c : VC) (n : Nat) : (s.linkCount k c n).modNum = s.modNum := rfl
@[simp] theorem linkCount_sent (s : State) (k : Nat) (c : VC) (n : Nat) : (s.linkCount k c n).sent = s.sent := rfl
@[simp] theorem linkCount_trvTag (s : State) (k : Nat) (c : VC) (n : Nat) : (s.linkCount k c n).trvTag = s.trvTag := rfl
@[simp] theorem linkCount_clk (s : State) (k : Nat) (c : VC) (n : Nat) : (s.linkCount k c n).clk = s.clk := rfl
@[simp] theorem linkCount_pwr (s : State) (k : Nat) (c : VC) (n : Nat) : (s.linkCount k c n).pwr = s.pwr := rfl
@[simp] theorem linkCount_sec (s : State) (k : Nat) (c : VC) (n : Nat) : (s.linkCount k c n).sec = s.sec := rfl
@[simp] theorem linkCount_dep (s : State) (k : Nat) (c : VC) (n : Nat) : (s.linkCount k c n).dep = s.dep := rfl
@[simp] theorem linkCount_cairn (s : State) (k : Nat) (c : VC) (n : Nat) : (s.linkCount k c n).cairn = s.cairn := rfl
@[simp] theorem linkCount_panel (s : State) (k : Nat) (c : VC) (n : Nat) : (s.linkCount k c n).panel = s.panel := rfl
@[simp] theorem linkCount_draws (s : State) (k : Nat) (c : VC) (n : Nat) : (s.linkCount k c n).draws = s.draws := rfl
@[simp] theorem linkCount_free (s : State) (k : Nat) (c : VC) (n : Nat) : (s.linkCount k c n).free = s.free := rfl

/-! ### perturbHit -/

@[simp] theorem perturbHit_pending (s : State) (k i : Nat) : (s.perturbHit k i).pending = s.pending := rfl
@[simp] theorem perturbHit_aon (s : State) (k i : Nat) : (s.perturbHit k i).aon = s.aon := rfl
@[simp] theorem perturbHit_out (s : State) (k i : Nat) : (s.perturbHit k i).out = s.out := rfl
@[simp] theorem perturbHit_stns (s : State) (k i : Nat) : (s.perturbHit k i).stns = s.stns := rfl
@[simp] theorem perturbHit_mem (s : State) (k i : Nat) : (s.perturbHit k i).mem = s.mem := rfl
@[simp] theorem perturbHit_seams (s : State) (k i : Nat) : (s.perturbHit k i).seams = s.seams := rfl
@[simp] theorem perturbHit_trk (s : State) (k i : Nat) : (s.perturbHit k i).trk = s.trk := rfl
@[simp] theorem perturbHit_parcels (s : State) (k i : Nat) : (s.perturbHit k i).parcels = s.parcels := rfl
@[simp] theorem perturbHit_reqs (s : State) (k i : Nat) : (s.perturbHit k i).reqs = s.reqs := rfl
@[simp] theorem perturbHit_gates (s : State) (k i : Nat) : (s.perturbHit k i).gates = s.gates := rfl
@[simp] theorem perturbHit_adapts (s : State) (k i : Nat) : (s.perturbHit k i).adapts = s.adapts := rfl
@[simp] theorem perturbHit_duty (s : State) (k i : Nat) : (s.perturbHit k i).duty = s.duty := rfl
@[simp] theorem perturbHit_srvCtr (s : State) (k i : Nat) : (s.perturbHit k i).srvCtr = s.srvCtr := rfl
@[simp] theorem perturbHit_mbox (s : State) (k i : Nat) : (s.perturbHit k i).mbox = s.mbox := rfl
@[simp] theorem perturbHit_mboxCtr (s : State) (k i : Nat) : (s.perturbHit k i).mboxCtr = s.mboxCtr := rfl
@[simp] theorem perturbHit_presets (s : State) (k i : Nat) : (s.perturbHit k i).presets = s.presets := rfl
@[simp] theorem perturbHit_i3c (s : State) (k i : Nat) : (s.perturbHit k i).i3c = s.i3c := rfl
@[simp] theorem perturbHit_plan (s : State) (k i : Nat) : (s.perturbHit k i).plan = s.plan := rfl
@[simp] theorem perturbHit_modNum (s : State) (k i : Nat) : (s.perturbHit k i).modNum = s.modNum := rfl
@[simp] theorem perturbHit_sent (s : State) (k i : Nat) : (s.perturbHit k i).sent = s.sent := rfl
@[simp] theorem perturbHit_trvTag (s : State) (k i : Nat) : (s.perturbHit k i).trvTag = s.trvTag := rfl
@[simp] theorem perturbHit_trv (s : State) (k i : Nat) : (s.perturbHit k i).trv = s.trv := rfl
@[simp] theorem perturbHit_clk (s : State) (k i : Nat) : (s.perturbHit k i).clk = s.clk := rfl
@[simp] theorem perturbHit_pwr (s : State) (k i : Nat) : (s.perturbHit k i).pwr = s.pwr := rfl
@[simp] theorem perturbHit_sec (s : State) (k i : Nat) : (s.perturbHit k i).sec = s.sec := rfl
@[simp] theorem perturbHit_cairn (s : State) (k i : Nat) : (s.perturbHit k i).cairn = s.cairn := rfl
@[simp] theorem perturbHit_panel (s : State) (k i : Nat) : (s.perturbHit k i).panel = s.panel := rfl
@[simp] theorem perturbHit_draws (s : State) (k i : Nat) : (s.perturbHit k i).draws = s.draws := rfl
@[simp] theorem perturbHit_free (s : State) (k i : Nat) : (s.perturbHit k i).free = s.free := rfl

/-! ### touch -/

@[simp] theorem touch_pending (s : State) (n p a len : Nat) : (s.touch n p a len).pending = s.pending := rfl
@[simp] theorem touch_aon (s : State) (n p a len : Nat) : (s.touch n p a len).aon = s.aon := rfl
@[simp] theorem touch_out (s : State) (n p a len : Nat) : (s.touch n p a len).out = s.out := rfl
@[simp] theorem touch_mem (s : State) (n p a len : Nat) : (s.touch n p a len).mem = s.mem := rfl
@[simp] theorem touch_seams (s : State) (n p a len : Nat) : (s.touch n p a len).seams = s.seams := rfl
@[simp] theorem touch_trk (s : State) (n p a len : Nat) : (s.touch n p a len).trk = s.trk := rfl
@[simp] theorem touch_parcels (s : State) (n p a len : Nat) : (s.touch n p a len).parcels = s.parcels := rfl
@[simp] theorem touch_reqs (s : State) (n p a len : Nat) : (s.touch n p a len).reqs = s.reqs := rfl
@[simp] theorem touch_gates (s : State) (n p a len : Nat) : (s.touch n p a len).gates = s.gates := rfl
@[simp] theorem touch_adapts (s : State) (n p a len : Nat) : (s.touch n p a len).adapts = s.adapts := rfl
@[simp] theorem touch_duty (s : State) (n p a len : Nat) : (s.touch n p a len).duty = s.duty := rfl
@[simp] theorem touch_srvCtr (s : State) (n p a len : Nat) : (s.touch n p a len).srvCtr = s.srvCtr := rfl
@[simp] theorem touch_mbox (s : State) (n p a len : Nat) : (s.touch n p a len).mbox = s.mbox := rfl
@[simp] theorem touch_mboxCtr (s : State) (n p a len : Nat) : (s.touch n p a len).mboxCtr = s.mboxCtr := rfl
@[simp] theorem touch_presets (s : State) (n p a len : Nat) : (s.touch n p a len).presets = s.presets := rfl
@[simp] theorem touch_i3c (s : State) (n p a len : Nat) : (s.touch n p a len).i3c = s.i3c := rfl
@[simp] theorem touch_plan (s : State) (n p a len : Nat) : (s.touch n p a len).plan = s.plan := rfl
@[simp] theorem touch_modNum (s : State) (n p a len : Nat) : (s.touch n p a len).modNum = s.modNum := rfl
@[simp] theorem touch_sent (s : State) (n p a len : Nat) : (s.touch n p a len).sent = s.sent := rfl
@[simp] theorem touch_trvTag (s : State) (n p a len : Nat) : (s.touch n p a len).trvTag = s.trvTag := rfl
@[simp] theorem touch_trv (s : State) (n p a len : Nat) : (s.touch n p a len).trv = s.trv := rfl
@[simp] theorem touch_clk (s : State) (n p a len : Nat) : (s.touch n p a len).clk = s.clk := rfl
@[simp] theorem touch_pwr (s : State) (n p a len : Nat) : (s.touch n p a len).pwr = s.pwr := rfl
@[simp] theorem touch_sec (s : State) (n p a len : Nat) : (s.touch n p a len).sec = s.sec := rfl
@[simp] theorem touch_cairn (s : State) (n p a len : Nat) : (s.touch n p a len).cairn = s.cairn := rfl
@[simp] theorem touch_panel (s : State) (n p a len : Nat) : (s.touch n p a len).panel = s.panel := rfl
@[simp] theorem touch_draws (s : State) (n p a len : Nat) : (s.touch n p a len).draws = s.draws := rfl
@[simp] theorem touch_free (s : State) (n p a len : Nat) : (s.touch n p a len).free = s.free := rfl

/-! ### swrite -/

@[simp] theorem swrite_pending (s : State) (n p a : Nat) (bs : List Byte) : (s.swrite n p a bs).pending = s.pending := rfl
@[simp] theorem swrite_aon (s : State) (n p a : Nat) (bs : List Byte) : (s.swrite n p a bs).aon = s.aon := rfl
@[simp] theorem swrite_out (s : State) (n p a : Nat) (bs : List Byte) : (s.swrite n p a bs).out = s.out := rfl
@[simp] theorem swrite_mem (s : State) (n p a : Nat) (bs : List Byte) : (s.swrite n p a bs).mem = s.mem := rfl
@[simp] theorem swrite_seams (s : State) (n p a : Nat) (bs : List Byte) : (s.swrite n p a bs).seams = s.seams := rfl
@[simp] theorem swrite_trk (s : State) (n p a : Nat) (bs : List Byte) : (s.swrite n p a bs).trk = s.trk := rfl
@[simp] theorem swrite_parcels (s : State) (n p a : Nat) (bs : List Byte) : (s.swrite n p a bs).parcels = s.parcels := rfl
@[simp] theorem swrite_reqs (s : State) (n p a : Nat) (bs : List Byte) : (s.swrite n p a bs).reqs = s.reqs := rfl
@[simp] theorem swrite_gates (s : State) (n p a : Nat) (bs : List Byte) : (s.swrite n p a bs).gates = s.gates := rfl
@[simp] theorem swrite_adapts (s : State) (n p a : Nat) (bs : List Byte) : (s.swrite n p a bs).adapts = s.adapts := rfl
@[simp] theorem swrite_duty (s : State) (n p a : Nat) (bs : List Byte) : (s.swrite n p a bs).duty = s.duty := rfl
@[simp] theorem swrite_srvCtr (s : State) (n p a : Nat) (bs : List Byte) : (s.swrite n p a bs).srvCtr = s.srvCtr := rfl
@[simp] theorem swrite_mbox (s : State) (n p a : Nat) (bs : List Byte) : (s.swrite n p a bs).mbox = s.mbox := rfl
@[simp] theorem swrite_mboxCtr (s : State) (n p a : Nat) (bs : List Byte) : (s.swrite n p a bs).mboxCtr = s.mboxCtr := rfl
@[simp] theorem swrite_presets (s : State) (n p a : Nat) (bs : List Byte) : (s.swrite n p a bs).presets = s.presets := rfl
@[simp] theorem swrite_i3c (s : State) (n p a : Nat) (bs : List Byte) : (s.swrite n p a bs).i3c = s.i3c := rfl
@[simp] theorem swrite_plan (s : State) (n p a : Nat) (bs : List Byte) : (s.swrite n p a bs).plan = s.plan := rfl
@[simp] theorem swrite_modNum (s : State) (n p a : Nat) (bs : List Byte) : (s.swrite n p a bs).modNum = s.modNum := rfl
@[simp] theorem swrite_sent (s : State) (n p a : Nat) (bs : List Byte) : (s.swrite n p a bs).sent = s.sent := rfl
@[simp] theorem swrite_trvTag (s : State) (n p a : Nat) (bs : List Byte) : (s.swrite n p a bs).trvTag = s.trvTag := rfl
@[simp] theorem swrite_trv (s : State) (n p a : Nat) (bs : List Byte) : (s.swrite n p a bs).trv = s.trv := rfl
@[simp] theorem swrite_clk (s : State) (n p a : Nat) (bs : List Byte) : (s.swrite n p a bs).clk = s.clk := rfl
@[simp] theorem swrite_pwr (s : State) (n p a : Nat) (bs : List Byte) : (s.swrite n p a bs).pwr = s.pwr := rfl
@[simp] theorem swrite_sec (s : State) (n p a : Nat) (bs : List Byte) : (s.swrite n p a bs).sec = s.sec := rfl
@[simp] theorem swrite_cairn (s : State) (n p a : Nat) (bs : List Byte) : (s.swrite n p a bs).cairn = s.cairn := rfl
@[simp] theorem swrite_panel (s : State) (n p a : Nat) (bs : List Byte) : (s.swrite n p a bs).panel = s.panel := rfl
@[simp] theorem swrite_draws (s : State) (n p a : Nat) (bs : List Byte) : (s.swrite n p a bs).draws = s.draws := rfl
@[simp] theorem swrite_free (s : State) (n p a : Nat) (bs : List Byte) : (s.swrite n p a bs).free = s.free := rfl

/-! ### rput -/

@[simp] theorem rput_pending (s : State) (a : Nat) (bs : List Byte) : (s.rput a bs).pending = s.pending := rfl
@[simp] theorem rput_aon (s : State) (a : Nat) (bs : List Byte) : (s.rput a bs).aon = s.aon := rfl
@[simp] theorem rput_out (s : State) (a : Nat) (bs : List Byte) : (s.rput a bs).out = s.out := rfl
@[simp] theorem rput_stns (s : State) (a : Nat) (bs : List Byte) : (s.rput a bs).stns = s.stns := rfl
@[simp] theorem rput_seams (s : State) (a : Nat) (bs : List Byte) : (s.rput a bs).seams = s.seams := rfl
@[simp] theorem rput_trk (s : State) (a : Nat) (bs : List Byte) : (s.rput a bs).trk = s.trk := rfl
@[simp] theorem rput_parcels (s : State) (a : Nat) (bs : List Byte) : (s.rput a bs).parcels = s.parcels := rfl
@[simp] theorem rput_reqs (s : State) (a : Nat) (bs : List Byte) : (s.rput a bs).reqs = s.reqs := rfl
@[simp] theorem rput_gates (s : State) (a : Nat) (bs : List Byte) : (s.rput a bs).gates = s.gates := rfl
@[simp] theorem rput_adapts (s : State) (a : Nat) (bs : List Byte) : (s.rput a bs).adapts = s.adapts := rfl
@[simp] theorem rput_duty (s : State) (a : Nat) (bs : List Byte) : (s.rput a bs).duty = s.duty := rfl
@[simp] theorem rput_srvCtr (s : State) (a : Nat) (bs : List Byte) : (s.rput a bs).srvCtr = s.srvCtr := rfl
@[simp] theorem rput_mbox (s : State) (a : Nat) (bs : List Byte) : (s.rput a bs).mbox = s.mbox := rfl
@[simp] theorem rput_mboxCtr (s : State) (a : Nat) (bs : List Byte) : (s.rput a bs).mboxCtr = s.mboxCtr := rfl
@[simp] theorem rput_presets (s : State) (a : Nat) (bs : List Byte) : (s.rput a bs).presets = s.presets := rfl
@[simp] theorem rput_i3c (s : State) (a : Nat) (bs : List Byte) : (s.rput a bs).i3c = s.i3c := rfl
@[simp] theorem rput_plan (s : State) (a : Nat) (bs : List Byte) : (s.rput a bs).plan = s.plan := rfl
@[simp] theorem rput_modNum (s : State) (a : Nat) (bs : List Byte) : (s.rput a bs).modNum = s.modNum := rfl
@[simp] theorem rput_sent (s : State) (a : Nat) (bs : List Byte) : (s.rput a bs).sent = s.sent := rfl
@[simp] theorem rput_trvTag (s : State) (a : Nat) (bs : List Byte) : (s.rput a bs).trvTag = s.trvTag := rfl
@[simp] theorem rput_trv (s : State) (a : Nat) (bs : List Byte) : (s.rput a bs).trv = s.trv := rfl
@[simp] theorem rput_clk (s : State) (a : Nat) (bs : List Byte) : (s.rput a bs).clk = s.clk := rfl
@[simp] theorem rput_pwr (s : State) (a : Nat) (bs : List Byte) : (s.rput a bs).pwr = s.pwr := rfl
@[simp] theorem rput_sec (s : State) (a : Nat) (bs : List Byte) : (s.rput a bs).sec = s.sec := rfl
@[simp] theorem rput_dep (s : State) (a : Nat) (bs : List Byte) : (s.rput a bs).dep = s.dep := rfl
@[simp] theorem rput_cairn (s : State) (a : Nat) (bs : List Byte) : (s.rput a bs).cairn = s.cairn := rfl
@[simp] theorem rput_panel (s : State) (a : Nat) (bs : List Byte) : (s.rput a bs).panel = s.panel := rfl
@[simp] theorem rput_draws (s : State) (a : Nat) (bs : List Byte) : (s.rput a bs).draws = s.draws := rfl
@[simp] theorem rput_free (s : State) (a : Nat) (bs : List Byte) : (s.rput a bs).free = s.free := rfl

/-! ### openBundle -/

@[simp] theorem openBundle_pending (s : State) (n : Nat) : (s.openBundle n).pending = s.pending := rfl
@[simp] theorem openBundle_aon (s : State) (n : Nat) : (s.openBundle n).aon = s.aon := rfl
@[simp] theorem openBundle_out (s : State) (n : Nat) : (s.openBundle n).out = s.out := rfl
@[simp] theorem openBundle_mem (s : State) (n : Nat) : (s.openBundle n).mem = s.mem := rfl
@[simp] theorem openBundle_seams (s : State) (n : Nat) : (s.openBundle n).seams = s.seams := rfl
@[simp] theorem openBundle_trk (s : State) (n : Nat) : (s.openBundle n).trk = s.trk := rfl
@[simp] theorem openBundle_parcels (s : State) (n : Nat) : (s.openBundle n).parcels = s.parcels := rfl
@[simp] theorem openBundle_reqs (s : State) (n : Nat) : (s.openBundle n).reqs = s.reqs := rfl
@[simp] theorem openBundle_gates (s : State) (n : Nat) : (s.openBundle n).gates = s.gates := rfl
@[simp] theorem openBundle_adapts (s : State) (n : Nat) : (s.openBundle n).adapts = s.adapts := rfl
@[simp] theorem openBundle_duty (s : State) (n : Nat) : (s.openBundle n).duty = s.duty := rfl
@[simp] theorem openBundle_srvCtr (s : State) (n : Nat) : (s.openBundle n).srvCtr = s.srvCtr := rfl
@[simp] theorem openBundle_mbox (s : State) (n : Nat) : (s.openBundle n).mbox = s.mbox := rfl
@[simp] theorem openBundle_mboxCtr (s : State) (n : Nat) : (s.openBundle n).mboxCtr = s.mboxCtr := rfl
@[simp] theorem openBundle_presets (s : State) (n : Nat) : (s.openBundle n).presets = s.presets := rfl
@[simp] theorem openBundle_i3c (s : State) (n : Nat) : (s.openBundle n).i3c = s.i3c := rfl
@[simp] theorem openBundle_plan (s : State) (n : Nat) : (s.openBundle n).plan = s.plan := rfl
@[simp] theorem openBundle_modNum (s : State) (n : Nat) : (s.openBundle n).modNum = s.modNum := rfl
@[simp] theorem openBundle_sent (s : State) (n : Nat) : (s.openBundle n).sent = s.sent := rfl
@[simp] theorem openBundle_trvTag (s : State) (n : Nat) : (s.openBundle n).trvTag = s.trvTag := rfl
@[simp] theorem openBundle_trv (s : State) (n : Nat) : (s.openBundle n).trv = s.trv := rfl
@[simp] theorem openBundle_clk (s : State) (n : Nat) : (s.openBundle n).clk = s.clk := rfl
@[simp] theorem openBundle_pwr (s : State) (n : Nat) : (s.openBundle n).pwr = s.pwr := rfl
@[simp] theorem openBundle_sec (s : State) (n : Nat) : (s.openBundle n).sec = s.sec := rfl
@[simp] theorem openBundle_dep (s : State) (n : Nat) : (s.openBundle n).dep = s.dep := rfl
@[simp] theorem openBundle_cairn (s : State) (n : Nat) : (s.openBundle n).cairn = s.cairn := rfl
@[simp] theorem openBundle_panel (s : State) (n : Nat) : (s.openBundle n).panel = s.panel := rfl
@[simp] theorem openBundle_draws (s : State) (n : Nat) : (s.openBundle n).draws = s.draws := rfl
@[simp] theorem openBundle_free (s : State) (n : Nat) : (s.openBundle n).free = s.free := rfl

/-! ### modSec -/

@[simp] theorem modSec_pending (s : State) (f : Sec → Sec) : (s.modSec f).pending = s.pending := rfl
@[simp] theorem modSec_aon (s : State) (f : Sec → Sec) : (s.modSec f).aon = s.aon := rfl
@[simp] theorem modSec_out (s : State) (f : Sec → Sec) : (s.modSec f).out = s.out := rfl
@[simp] theorem modSec_stns (s : State) (f : Sec → Sec) : (s.modSec f).stns = s.stns := rfl
@[simp] theorem modSec_mem (s : State) (f : Sec → Sec) : (s.modSec f).mem = s.mem := rfl
@[simp] theorem modSec_seams (s : State) (f : Sec → Sec) : (s.modSec f).seams = s.seams := rfl
@[simp] theorem modSec_trk (s : State) (f : Sec → Sec) : (s.modSec f).trk = s.trk := rfl
@[simp] theorem modSec_parcels (s : State) (f : Sec → Sec) : (s.modSec f).parcels = s.parcels := rfl
@[simp] theorem modSec_reqs (s : State) (f : Sec → Sec) : (s.modSec f).reqs = s.reqs := rfl
@[simp] theorem modSec_gates (s : State) (f : Sec → Sec) : (s.modSec f).gates = s.gates := rfl
@[simp] theorem modSec_adapts (s : State) (f : Sec → Sec) : (s.modSec f).adapts = s.adapts := rfl
@[simp] theorem modSec_duty (s : State) (f : Sec → Sec) : (s.modSec f).duty = s.duty := rfl
@[simp] theorem modSec_srvCtr (s : State) (f : Sec → Sec) : (s.modSec f).srvCtr = s.srvCtr := rfl
@[simp] theorem modSec_mbox (s : State) (f : Sec → Sec) : (s.modSec f).mbox = s.mbox := rfl
@[simp] theorem modSec_mboxCtr (s : State) (f : Sec → Sec) : (s.modSec f).mboxCtr = s.mboxCtr := rfl
@[simp] theorem modSec_presets (s : State) (f : Sec → Sec) : (s.modSec f).presets = s.presets := rfl
@[simp] theorem modSec_i3c (s : State) (f : Sec → Sec) : (s.modSec f).i3c = s.i3c := rfl
@[simp] theorem modSec_plan (s : State) (f : Sec → Sec) : (s.modSec f).plan = s.plan := rfl
@[simp] theorem modSec_modNum (s : State) (f : Sec → Sec) : (s.modSec f).modNum = s.modNum := rfl
@[simp] theorem modSec_sent (s : State) (f : Sec → Sec) : (s.modSec f).sent = s.sent := rfl
@[simp] theorem modSec_trvTag (s : State) (f : Sec → Sec) : (s.modSec f).trvTag = s.trvTag := rfl
@[simp] theorem modSec_trv (s : State) (f : Sec → Sec) : (s.modSec f).trv = s.trv := rfl
@[simp] theorem modSec_clk (s : State) (f : Sec → Sec) : (s.modSec f).clk = s.clk := rfl
@[simp] theorem modSec_pwr (s : State) (f : Sec → Sec) : (s.modSec f).pwr = s.pwr := rfl
@[simp] theorem modSec_dep (s : State) (f : Sec → Sec) : (s.modSec f).dep = s.dep := rfl
@[simp] theorem modSec_cairn (s : State) (f : Sec → Sec) : (s.modSec f).cairn = s.cairn := rfl
@[simp] theorem modSec_panel (s : State) (f : Sec → Sec) : (s.modSec f).panel = s.panel := rfl
@[simp] theorem modSec_draws (s : State) (f : Sec → Sec) : (s.modSec f).draws = s.draws := rfl
@[simp] theorem modSec_free (s : State) (f : Sec → Sec) : (s.modSec f).free = s.free := rfl

/-! ### modPanel -/

@[simp] theorem modPanel_pending (s : State) (f : Panel → Panel) : (s.modPanel f).pending = s.pending := rfl
@[simp] theorem modPanel_aon (s : State) (f : Panel → Panel) : (s.modPanel f).aon = s.aon := rfl
@[simp] theorem modPanel_out (s : State) (f : Panel → Panel) : (s.modPanel f).out = s.out := rfl
@[simp] theorem modPanel_stns (s : State) (f : Panel → Panel) : (s.modPanel f).stns = s.stns := rfl
@[simp] theorem modPanel_mem (s : State) (f : Panel → Panel) : (s.modPanel f).mem = s.mem := rfl
@[simp] theorem modPanel_seams (s : State) (f : Panel → Panel) : (s.modPanel f).seams = s.seams := rfl
@[simp] theorem modPanel_trk (s : State) (f : Panel → Panel) : (s.modPanel f).trk = s.trk := rfl
@[simp] theorem modPanel_parcels (s : State) (f : Panel → Panel) : (s.modPanel f).parcels = s.parcels := rfl
@[simp] theorem modPanel_reqs (s : State) (f : Panel → Panel) : (s.modPanel f).reqs = s.reqs := rfl
@[simp] theorem modPanel_gates (s : State) (f : Panel → Panel) : (s.modPanel f).gates = s.gates := rfl
@[simp] theorem modPanel_adapts (s : State) (f : Panel → Panel) : (s.modPanel f).adapts = s.adapts := rfl
@[simp] theorem modPanel_duty (s : State) (f : Panel → Panel) : (s.modPanel f).duty = s.duty := rfl
@[simp] theorem modPanel_srvCtr (s : State) (f : Panel → Panel) : (s.modPanel f).srvCtr = s.srvCtr := rfl
@[simp] theorem modPanel_mbox (s : State) (f : Panel → Panel) : (s.modPanel f).mbox = s.mbox := rfl
@[simp] theorem modPanel_mboxCtr (s : State) (f : Panel → Panel) : (s.modPanel f).mboxCtr = s.mboxCtr := rfl
@[simp] theorem modPanel_presets (s : State) (f : Panel → Panel) : (s.modPanel f).presets = s.presets := rfl
@[simp] theorem modPanel_i3c (s : State) (f : Panel → Panel) : (s.modPanel f).i3c = s.i3c := rfl
@[simp] theorem modPanel_plan (s : State) (f : Panel → Panel) : (s.modPanel f).plan = s.plan := rfl
@[simp] theorem modPanel_modNum (s : State) (f : Panel → Panel) : (s.modPanel f).modNum = s.modNum := rfl
@[simp] theorem modPanel_sent (s : State) (f : Panel → Panel) : (s.modPanel f).sent = s.sent := rfl
@[simp] theorem modPanel_trvTag (s : State) (f : Panel → Panel) : (s.modPanel f).trvTag = s.trvTag := rfl
@[simp] theorem modPanel_trv (s : State) (f : Panel → Panel) : (s.modPanel f).trv = s.trv := rfl
@[simp] theorem modPanel_clk (s : State) (f : Panel → Panel) : (s.modPanel f).clk = s.clk := rfl
@[simp] theorem modPanel_pwr (s : State) (f : Panel → Panel) : (s.modPanel f).pwr = s.pwr := rfl
@[simp] theorem modPanel_sec (s : State) (f : Panel → Panel) : (s.modPanel f).sec = s.sec := rfl
@[simp] theorem modPanel_dep (s : State) (f : Panel → Panel) : (s.modPanel f).dep = s.dep := rfl
@[simp] theorem modPanel_cairn (s : State) (f : Panel → Panel) : (s.modPanel f).cairn = s.cairn := rfl
@[simp] theorem modPanel_draws (s : State) (f : Panel → Panel) : (s.modPanel f).draws = s.draws := rfl
@[simp] theorem modPanel_free (s : State) (f : Panel → Panel) : (s.modPanel f).free = s.free := rfl

/-! ### Accessors -/

@[simp] theorem stn_setStn_self (s : State) (n : Nat) (x : Station) : (s.setStn n x).stn n = x := by simp [State.setStn, State.stn]
theorem stn_setStn_ne (s : State) {n m : Nat} (h : m ≠ n) (x : Station) : (s.setStn n x).stn m = s.stn m := by
  simp [State.setStn, State.stn, tget_fput_ne, h]
@[simp] theorem stn_modStn_self (s : State) (n : Nat) (f : Station → Station) : (s.modStn n f).stn n = f (s.stn n) := by simp [State.modStn, State.setStn, State.stn]
theorem stn_modStn_ne (s : State) {n m : Nat} (h : m ≠ n) (f : Station → Station) : (s.modStn n f).stn m = s.stn m := by
  simp [State.modStn, State.setStn, State.stn, tget_fput_ne, h]
@[simp] theorem parcel_modParcel_self (s : State) (n : Nat) (f : Parcel → Parcel) : (s.modParcel n f).parcel n = f (s.parcel n) := by simp [State.modParcel, State.parcel]
theorem parcel_modParcel_ne (s : State) {n m : Nat} (h : m ≠ n) (f : Parcel → Parcel) : (s.modParcel n f).parcel m = s.parcel m := by
  simp [State.modParcel, State.parcel, tget_fput_ne, h]
@[simp] theorem req_modReq_self (s : State) (n : Nat) (f : Request → Request) : (s.modReq n f).req n = f (s.req n) := by simp [State.modReq, State.req]
theorem req_modReq_ne (s : State) {n m : Nat} (h : m ≠ n) (f : Request → Request) : (s.modReq n f).req m = s.req m := by
  simp [State.modReq, State.req, tget_fput_ne, h]
@[simp] theorem gate_modGate_self (s : State) (n : Nat) (f : Gate → Gate) : (s.modGate n f).gate n = f (s.gate n) := by simp [State.gate, State.modGate]
theorem gate_modGate_ne (s : State) {n m : Nat} (h : m ≠ n) (f : Gate → Gate) : (s.modGate n f).gate m = s.gate m := by
  simp [State.gate, State.modGate, tget_fput_ne, h]
@[simp] theorem box_modBox_self (s : State) (n : Nat) (f : Mbox → Mbox) : (s.modBox n f).box n = f (s.box n) := by simp [State.box, State.modBox]
theorem box_modBox_ne (s : State) {n m : Nat} (h : m ≠ n) (f : Mbox → Mbox) : (s.modBox n f).box m = s.box m := by
  simp [State.box, State.modBox, tget_fput_ne, h]
@[simp] theorem stack_modStack_self (s : State) (n : Nat) (f : Stack → Stack) : (s.modStack n f).stack n = f (s.stack n) := by simp [State.modStack, State.stack]
theorem stack_modStack_ne (s : State) {n m : Nat} (h : m ≠ n) (f : Stack → Stack) : (s.modStack n f).stack m = s.stack m := by
  simp [State.modStack, State.stack, tget_fput_ne, h]
@[simp] theorem tlink_modLink_self (s : State) (n : Nat) (f : TLink → TLink) : (s.modLink n f).tlink n = f (s.tlink n) := by simp [State.modLink, State.tlink]
theorem tlink_modLink_ne (s : State) {n m : Nat} (h : m ≠ n) (f : TLink → TLink) : (s.modLink n f).tlink m = s.tlink m := by
  simp [State.modLink, State.tlink, tget_fput_ne, h]
@[simp] theorem tport_modPort_self (s : State) (n : Nat) (f : TPort → TPort) : (s.modPort n f).tport n = f (s.tport n) := by simp [State.modPort, State.tport]
theorem tport_modPort_ne (s : State) {n m : Nat} (h : m ≠ n) (f : TPort → TPort) : (s.modPort n f).tport m = s.tport m := by
  simp [State.modPort, State.tport, tget_fput_ne, h]

@[simp] theorem core_modCore_self (s : State) (n : Nat) (f : StCore → StCore) : (s.modCore n f).core n = f (s.core n) := by
  simp [State.core, State.modCore]
theorem core_modCore_ne (s : State) {n m : Nat} (h : m ≠ n) (f : StCore → StCore) : (s.modCore n f).core m = s.core m := by
  simp [State.core, State.modCore, stn_modStn_ne, h]
@[simp] theorem entry_setEntry_self (s : State) (f t : Nat) (e : TrkEntry) : (s.setEntry f t e).entry f t = e := by
  simp [State.entry, State.setEntry]

/-- Two updates of one Station are one update. -/
@[simp] theorem modStn_modStn (s : State) (n : Nat) (f g : Station → Station) :
    (s.modStn n f).modStn n g = s.modStn n fun x => g (f x) := by
  simp [State.modStn, State.setStn, State.stn]
@[simp] theorem setStn_modStn (s : State) (n : Nat) (x : Station) (g : Station → Station) :
    (s.setStn n x).modStn n g = s.setStn n (g x) := by
  simp [State.modStn, State.setStn, State.stn]
@[simp] theorem setStn_setStn (s : State) (n : Nat) (x y : Station) : (s.setStn n x).setStn n y = s.setStn n y := by
  simp [State.setStn]

end Sys2Proof.Machine
end

