-- ==== Sys2Proof/Laws/Ops.lean ====
section
/-!
SUPPORT. What the shared operations do, each said once: the passing of time, records of the Cairn, units that leave, responses, and the
reception of a command whose turn it is. Proofs about commands cite these in place of unfolding the operations.
-/

namespace Sys2Proof.Machine

/-! ### Time -/

/-- Raising memory counters changes memory's counters alone. -/
theorem foldl_memCount_spec (l : List Nat) (k : MC) (d : Nat) (s : State) :
    ∃ m, l.foldl (fun x i => x.memCount i k d) s = { s with mem := { s.mem with ctr := m } } := by
  induction l generalizing s with
  | nil => exact ⟨s.mem.ctr, rfl⟩
  | cons a r ih =>
    obtain ⟨m, e⟩ := ih (s.memCount a k d)
    exact ⟨m, e.trans rfl⟩

/-- As time passes the AON time moves on, never back, and of everything else only counters of memory and power may rise. -/
theorem tickTo_spec (s : State) (t : Nat) :
    ∃ m c, s.tickTo t = { s with aon := max s.aon t, mem := { s.mem with ctr := m }, pwr := { s.pwr with ctr := c } } := by
  unfold State.tickTo
  dsimp only
  split
  · exact ⟨s.mem.ctr, s.pwr.ctr, rfl⟩
  · obtain ⟨m, e⟩ := foldl_memCount_spec s.mem.waitingStacks .sagWait (t - s.aon)
      (State.modCount { s with aon := max s.aon t } .sagAon (t - s.aon))
    exact ⟨m, _, e⟩

@[simp] theorem tickTo_aon (s : State) (t : Nat) : (s.tickTo t).aon = max s.aon t := by
  obtain ⟨m, c, e⟩ := tickTo_spec s t; rw [e]
@[simp] theorem tickTo_pending (s : State) (t : Nat) : (s.tickTo t).pending = s.pending := by
  obtain ⟨m, c, e⟩ := tickTo_spec s t; rw [e]
@[simp] theorem tickTo_out (s : State) (t : Nat) : (s.tickTo t).out = s.out := by
  obtain ⟨m, c, e⟩ := tickTo_spec s t; rw [e]
@[simp] theorem tickTo_cells (s : State) (t : Nat) : (s.tickTo t).mem.cells = s.mem.cells := by
  obtain ⟨m, c, e⟩ := tickTo_spec s t; rw [e]
@[simp] theorem tickTo_pages (s : State) (t : Nat) : (s.tickTo t).mem.pages = s.mem.pages := by
  obtain ⟨m, c, e⟩ := tickTo_spec s t; rw [e]
@[simp] theorem tickTo_stns (s : State) (t : Nat) : (s.tickTo t).stns = s.stns := by
  obtain ⟨m, c, e⟩ := tickTo_spec s t; rw [e]
@[simp] theorem tickTo_trk (s : State) (t : Nat) : (s.tickTo t).trk = s.trk := by
  obtain ⟨m, c, e⟩ := tickTo_spec s t; rw [e]
@[simp] theorem tickTo_reqs (s : State) (t : Nat) : (s.tickTo t).reqs = s.reqs := by
  obtain ⟨m, c, e⟩ := tickTo_spec s t; rw [e]
@[simp] theorem tickTo_parcels (s : State) (t : Nat) : (s.tickTo t).parcels = s.parcels := by
  obtain ⟨m, c, e⟩ := tickTo_spec s t; rw [e]
@[simp] theorem tickTo_mbox (s : State) (t : Nat) : (s.tickTo t).mbox = s.mbox := by
  obtain ⟨m, c, e⟩ := tickTo_spec s t; rw [e]
@[simp] theorem tickTo_sec (s : State) (t : Nat) : (s.tickTo t).sec = s.sec := by
  obtain ⟨m, c, e⟩ := tickTo_spec s t; rw [e]
@[simp] theorem tickTo_trv (s : State) (t : Nat) : (s.tickTo t).trv = s.trv := by
  obtain ⟨m, c, e⟩ := tickTo_spec s t; rw [e]
@[simp] theorem tickTo_clk (s : State) (t : Nat) : (s.tickTo t).clk = s.clk := by
  obtain ⟨m, c, e⟩ := tickTo_spec s t; rw [e]

/-! ### Records, units and responses -/

/-- A record or its merging touches the Cairn and the counters of power and dependability alone. -/
theorem cairnAdd_spec (s : State) (kind source scope flags : Nat) (body : List Byte) :
    ∃ c p, s.cairnAdd kind source scope flags body = { s with cairn := c, pwr := { s.pwr with ctr := p } } := by
  unfold State.cairnAdd
  dsimp only
  split
  · exact ⟨_, _, rfl⟩
  · split
    · exact ⟨_, _, rfl⟩
    · exact ⟨_, s.pwr.ctr, rfl⟩

theorem cairnEvent_spec (s : State) (event : Nat) (st : Status) (detail : List Byte) :
    ∃ c p, s.cairnEvent event st detail = { s with cairn := c, pwr := { s.pwr with ctr := p } } := cairnAdd_spec s _ _ _ _ _

/-- A unit to a manager of the management port is the next that leaves. -/
theorem sendUnit_mgmt (s : State) (d : USource) (k m : Nat) (q c : BitVec 16) (g : BitVec 32) (pay : List Byte) (h : d.transport = .mgmt) :
    s.sendUnit d k m q c g pay = s.emit (.unit m d k q c g pay) := by
  simp only [State.sendUnit, h]

/-- Noting a status changes the last statuses that registers show and the counters of power and dependability alone. -/
theorem noteStatus_spec (s : State) (op : Nat) (st : Status) :
    ∃ l x p, s.noteStatus op st =
      { s with plan := { s.plan with last := l }, sec := { s.sec with last := x }, pwr := { s.pwr with ctr := p } } := by
  unfold State.noteStatus
  dsimp only
  split <;> split <;> split <;> exact ⟨_, _, _, rfl⟩

/-! ### Mailboxes in order (R416, R417) -/

/-- A mailbox that holds nothing has nothing to go on with. -/
theorem pumpBoxes_idle (s : State) (h : ∀ m, m < 17 → (s.box m).sync = [] ∧ (s.box m).held = []) : s.pumpBoxes = s := by
  have all : ∀ l : List Nat, (∀ m ∈ l, m < 17) →
      l.foldl (fun s m => s.pumpBox m ((s.box m).sync.length + (s.box m).held.length)) s = s := by
    intro l
    induction l with
    | nil => intro _; rfl
    | cons a r ih =>
      intro hl
      obtain ⟨h1, h2⟩ := h a (hl a (List.mem_cons_self ..))
      have e : s.pumpBox a ((s.box a).sync.length + (s.box a).held.length) = s := by rw [h1, h2]; rfl
      rw [List.foldl_cons, e]
      exact ih fun m hm => hl m (List.mem_cons_of_mem _ hm)
  exact all _ fun m hm => List.mem_range.mp hm

/-- A whole and legal COMMAND of a permitted source reaches its mailbox as its distance from NEXT says, and then waiting commands go on. -/
theorem receive_command (s : State) (u : MUnit) (hw : s.boxWorks (unitBox u) = true) (hb : unitBox u ≤ 16) (hu : unitWhole u = true)
    (hp : s.permitted (unitBox u) u.source = true) (hl : unitLegal u = true) (hk : u.ukind = 1#8) :
    s.receive u = (s.command (unitBox u) u).pumpBoxes := by
  simp only [State.receive, hw, hu, hp, hl, hk]
  rw [if_neg (by simp), if_neg (by simp; omega), if_neg (by simp)]
  simp

/-- A command that is NEXT and finds nothing executing is executed. -/
theorem command_next (s : State) (m : Nat) (u : MUnit) (hn : u.seq = (s.box m).next) (hw : (s.box m).wait = none) (hc : u.code ≠ 1#16) :
    s.command m u = s.execute m u := by
  have d : serialDist 16 u.seq.toNat (s.box m).next.toNat = 0 := by 
    have l := (s.box m).next.isLt
    have e : (s.box m).next.toNat % 65536 = (s.box m).next.toNat := Nat.mod_eq_of_lt l
    rw [hn]
    show sext 16 ((s.box m).next.toNat + 65536 - (s.box m).next.toNat % 65536) = 0
    rw [e, Nat.add_sub_cancel_left]; decide
  simp only [State.command, if_neg hc, d, hw]
  simp

/-- A command that passes its checks executes; its response leaves unless it keeps it. -/
theorem execute_runs (s : State) (m : Nat) (u : MUnit) (hc : u.code ≠ 1#16)
    (h : (((s.boxCount m .cmds).modBox m fun b => { b with next := u.seq + 1 }).cmdCheck m u.code.toNat u.payload) = none) :
    s.execute m u =
      let r := runCmd m u (((s.boxCount m .cmds).modBox m fun b => { b with next := u.seq + 1 }).modBox m fun b => { b with wait := some u })
      match r.2 with
      | none => r.1
      | some x => r.1.respond m u x.1 x.2 := by
  simp only [State.execute, h]
  generalize runCmd m u _ = r
  obtain ⟨t, o⟩ := r
  cases o with
  | none => rfl
  | some x => exact if_neg fun e => hc e.2

/-- A command that fails a check is answered with that check's status. -/
theorem execute_refused (s : State) (m : Nat) (u : MUnit) (st : Status)
    (h : (((s.boxCount m .cmds).modBox m fun b => { b with next := u.seq + 1 }).cmdCheck m u.code.toNat u.payload) = some st) :
    s.execute m u = ((s.boxCount m .cmds).modBox m fun b => { b with next := u.seq + 1 }).respond m u st [] := by
  simp only [State.execute, h]

end Sys2Proof.Machine
end

