-- ==== Sys2Proof/Safety.lean ====
section
/-!
DEFINITION. What a safe run is: the memory of every state it passes through is in canonical form, and every step answers a
next state.
-/

namespace Sys2Proof

/-- The step at a state answers a next state. -/
def Machine.State.goesOn (s : Machine.State) : Prop := ∃ t, Machine.step s = .next t

/-- The canonical form of what a state stores by byte: the module's memory, and every Station's scratchpad. -/
def Machine.State.wf (s : Machine.State) : Prop := s.mem.wf = true

end Sys2Proof
end

