-- ==== Sys2Proof/WellFormed.lean ====
section
/-!
DEFINITION. What a well-formed command is: its operands are what its row can carry. A payload has the length its carrier
gives it, a list of readings has one entry for each sensor.
-/

namespace Sys2Proof

/-- A transport unit whose length on the wire is that of its header, payload and CRC (R414). -/
def MUnit.wf (u : MUnit) : Bool := u.tlen == 20 + u.payload.length

/-- A serving frame whose UDP payload is its header and its payload (R335). -/
def SFrame.wf (f : SFrame) : Bool :=
  f.udpLen == 24 + f.payload.length && (match f.typ with
    | none => true
    | some k => decide (k = 0 ∨ 5 < k.toNat))

/-- A Traverse frame of at most 4,096 bytes of payload (R373), whose own TYPE is a reserved one (R374). -/
def TFrame.wf (f : TFrame) : Bool :=
  decide (f.payload.length ≤ 4096) && (match f.typ with
    | none => true
    | some k => decide (k = 0 ∨ (0x0A < k.toNat ∧ k.toNat < 0x20) ∨ 0x22 < k.toNat))

/-- A weight-store flit with its 256 bytes of payload (R303). -/
def WFlit.wf (f : WFlit) : Bool := f.payload.length == 256

/-- The codes that name no operation of their slot, 0 and the reserved ones: array (R79, R113) and LOAD field (R234), scalar
(R239) and vector slot (R243). -/
def arrayFree (c : Nat) : Bool := c == 0 || decide (4 ≤ c ∧ c < 8) || decide (10 ≤ c)
def loadFree (c : Nat) : Bool := c != 2 && c != 3 && c != 8
def vectorFree (c : Nat) : Bool := c == 0 || c == 0x0F || decide (0x15 ≤ c ∧ c < 0x30) || decide (0x34 ≤ c)

/-- The well-formed commands. -/
def Instr.wf : Instr → Bool
  | .descriptorSubmit _ d _ _ _ => d.length == 128
  | .holdEnd _ k _ => decide (0 < k)
  | .anop _ inLoad code _ => if inLoad then loadFree code.toNat else arrayFree code.toNat
  | .dnop _ code _ => code == 0 || decide (5 ≤ code.toNat)
  | .rnop _ code _ => code == 0 || decide (5 ≤ code.toNat)
  | .vnop _ _ code _ _ _ _ => vectorFree code.toNat
  | .snop _ code _ _ _ _ => code == 0 || decide (0x0F ≤ code.toNat)
  | .mnop _ code _ _ _ _ _ => code == 0 || decide (4 ≤ code.toNat)
  | .cnop _ code _ _ => code == 0 || decide (5 ≤ code.toNat)
  | .seamFlit _ _ _ _ _ _ _ p => p.length == 1024
  | .traverseFlit _ _ _ _ _ _ _ _ _ p _ _ => p.length == 640
  | .wslIdle _ f => f.wf
  | .wslRead _ f => f.wf
  | .wslData _ f => f.wf
  | .wslProg _ f => f.wf
  | .wslProgdata _ f => f.wf
  | .wslErase _ f => f.wf
  | .wslTagwr _ f => f.wf
  | .wslDone _ f => f.wf
  | .wslStatusrd _ f => f.wf
  | .wslStatusrsp _ f _ => f.wf
  | .wslAck _ _ f => f.wf
  | .wslNak _ _ f => f.wf
  | .submit f _ => f.wf
  | .prompt f _ => f.wf
  | .cancel f _ => f.wf
  | .resend f _ => f.wf
  | .endack f _ => f.wf
  | .write f _ => f.wf
  | .add f _ _ => f.wf
  | .mailbox f u _ => f.wf && u.wf
  | .kvseg f _ => f.wf
  | .grad f _ => f.wf
  | .traverseAck f _ => f.wf
  | .token f _ => f.wf
  | .reqctlCancel f _ => f.wf
  | .reqctlResend f _ => f.wf
  | .reqEnd f _ => f.wf
  | .drop f _ => f.wf
  | .closure _ f _ => f.wf
  | .reopen _ f _ => f.wf
  | .image _ f _ => f.wf && f.typ.isNone
  | .hello _ f _ => f.wf && f.typ.isNone
  | .dieTempReading _ l _ => l.length == 4
  | .benchmarkRead _ l o _ => l.length == 4 && o.length == 4
  | .dieDebugChain _ => true
  | _ => true

end Sys2Proof
end

