-- ==== Sys2Proof/Tests/Slice0.lean ====
section
/-!
SUPPORT. Tests of the model: ill-formed commands that WellFormed refuses, values of the spec's worked examples, and for the conditions of every
statement a state and operands that meet them.
-/

namespace Sys2Proof.Tests
open Sys2Proof Sys2Proof.Machine Sys2Proof.Claim

-- One theorem at a time: many evaluations that wait for the kernel at once would each hold a thread.
set_option Elab.async false

/-! ### Well-formed commands -/

def sframe (len : Nat) : SFrame :=
  { port := 0, srcAddr := 0, srcPort := 0, dstPort := 0, bad := false, udpLen := len, magic := 0x5850, ver := 1, seq := 0, len := 0, clientTag := 0,
    reqWord := 0, status := 0, modWord := 0, offset := 0, payload := [1, 2, 3, 4] }
def tframeOf (n : Nat) : TFrame :=
  { port := 0, set := false, sparcel := 0, dparcel := 0, cls := 0, fver := 1, pseq := 0, rsv7 := 0, dest := 0, src := 0, hops := 0, plangen := 0,
    len := 0, rsv18 := 0, tag := 0, addr := 0, payload := List.replicate n 0, ecrc := 0 }
def wflit (n : Nat) : WFlit := { seq := 0, tag := 0, aux := 0, payload := List.replicate n 0, errs := 0, crc := 0 }
def munit (n : Nat) : MUnit :=
  { source := { transport := .i3c, addr := 0, udp := 0, module := 0, parcel := none }, magic := 0x584D, ver := 1, ukind := 1, mbox := 16, rsv5 := 0,
    seq := 0, code := 2, len := 0, tag := 0, payload := [], crc := 0, tlen := n }

theorem test_wf_descriptor : (∀ n ∈ [127, 129], (Instr.descriptorSubmit 0 (List.replicate n 0) .graph false 0).wf = false) ∧
    (Instr.descriptorSubmit 0 (List.replicate 128 0) .graph false 0).wf = true := by decide +kernel
theorem test_wf_holdEnd : (Instr.holdEnd 0 0 Env.clean).wf = false ∧
    (Instr.holdEnd 0 1 Env.clean).wf = true := by decide
theorem test_wf_seamFlit : (Instr.seamFlit 0 true 0 0 false 0 0 (List.replicate 1023 0)).wf = false ∧
    (Instr.seamFlit 0 true 0 0 false 0 0 (List.replicate 1024 0)).wf = true := by decide +kernel
theorem test_wf_traverseFlit : (Instr.traverseFlit 0 0 0 0 false 0 0 0 0 (List.replicate 639 0) 0 0).wf = false ∧
    (Instr.traverseFlit 0 0 0 0 false 0 0 0 0 (List.replicate 640 0) 0 0).wf = true := by decide +kernel
/-- A slot's row without an operation takes code 0 and the reserved codes, no code of another row. -/
theorem test_wf_slotCodes :
    (∀ c ∈ [Instr.anop 0 false 1 0, .anop 0 false 9 0, .anop 0 true 2 0, .dnop 0 4 0, .rnop 0 1 0, .vnop 0 0 0x33 0 0 0 0, .vnop 0 0 0x14 0 0 0 0,
      .snop 0 0x0E 0 0 0 0, .mnop 0 3 0 0 0 0 0, .cnop 0 4 0 Env.clean], c.wf = false) ∧
    (∀ c ∈ [Instr.anop 0 false 4 0, .anop 0 false 0xA 0, .anop 0 true 1 0, .dnop 0 5 0, .rnop 0 0xF 0, .vnop 0 0 0x0F 0 0 0 0,
      .vnop 0 0 0x34 0 0 0 0, .snop 0 0x0F 0 0 0 0, .mnop 0 4 0 0 0 0 0, .cnop 0 5 0 Env.clean], c.wf = true) := by decide
/-- A frame's TYPE other than its command's is a reserved one. -/
theorem test_wf_type : (Instr.submit { sframe 28 with typ := some 2 } 0).wf = false ∧
    (Instr.submit { sframe 28 with typ := some 6 } 0).wf = true := by decide
theorem test_wf_flits :
    (∀ c ∈ [Instr.wslIdle 0 (wflit 255), .wslRead 0 (wflit 257), .wslData 0 (wflit 255), .wslProg 0 (wflit 255), .wslProgdata 0 (wflit 0),
      .wslErase 0 (wflit 255), .wslTagwr 0 (wflit 255), .wslDone 0 (wflit 255), .wslStatusrd 0 (wflit 255), .wslStatusrsp 0 (wflit 255) 0,
      .wslAck 0 true (wflit 255), .wslNak 0 false (wflit 257)], c.wf = false) ∧ (Instr.wslData 0 (wflit 256)).wf = true := by decide +kernel
theorem test_wf_clientFrames :
    (∀ c ∈ [Instr.submit (sframe 27) 0, .prompt (sframe 29) 0, .cancel (sframe 27) 0, .resend (sframe 24) 0, .endack (sframe 0) 0], c.wf = false) ∧
    (Instr.submit (sframe 28) 0).wf = true := by decide
theorem test_wf_traverseFrames :
    (∀ c ∈ [Instr.write (tframeOf 4097) 0, .kvseg (tframeOf 4097) 0, .grad (tframeOf 4097) 0, .mailbox (tframeOf 4097) (munit 20) 0,
      .mailbox (tframeOf 0) (munit 19) 0], c.wf = false) ∧ (Instr.mailbox (tframeOf 4096) (munit 20) 0).wf = true := by decide +kernel
theorem test_wf_readings :
    (Instr.dieTempReading 0 [none, none, none] 0).wf = false ∧ (Instr.dieTempReading 0 [none, none, none, some 5] 0).wf = true ∧
    (Instr.benchmarkRead 0 [1, 2, 3] [1, 2, 3, 4] 0).wf = false ∧ (Instr.benchmarkRead 0 [1, 2, 3, 4] [1, 2, 3, 4, 5] 0).wf = false ∧
    (Instr.benchmarkRead 0 [1, 2, 3, 4] [1, 2, 3, 4] 0).wf = true := by decide

/-! ### Values of the spec's worked examples -/

/-- The header of "Worked example: one A4 block" (02), its burst and its slot. -/
theorem test_header_of_the_A4_example :
    let h : Hdr := { u := false, z := false, sat := false, b60 := false, w := 4, es := [2, 2, 1, 3, 2, 0, -1, 2] }
    hdrBytes h = [0x02, 0x41, 0x60, 0x20, 0x00, 0xFC, 0x05, 0x04] ∧ hdrOf [0x02, 0x41, 0x60, 0x20, 0x00, 0xFC, 0x05, 0x04] = h ∧ burst 4 = 264 ∧
      burst 6 = 392 := by decide +kernel
/-- Its element 200, whose four bits are 0xB. -/
theorem test_element_of_the_A4_example :
    let h : Hdr := { u := false, z := false, sat := false, b60 := false, w := 4, es := [2, 2, 1, 3, 2, 0, -1, 2] }
    (blockElems false h (List.replicate 100 0 ++ [0xFB] ++ List.replicate 155 0)).getD 200 0 = -5 := by decide +kernel
/-- "Worked example: a window that withdraws boost" (16): margin limit 6 and trim 0. -/
theorem test_window_that_withdraws_boost :
    planMargin 5 [(5, 10, [4, 100, 100, 100]), (5, 10, [100, 58, 100, 100])] = some (6, 0) ∧
    predicted 5 10 5 60 0 4 = 490 ∧ predicted 5 10 6 0 0 4 = 1232 ∧ predicted 5 10 6 0 1 58 = 1782 := by decide +kernel
/-! ### The bundle -/

/-- No word spells a command by the opcode table, which gives its rows no bits. -/
theorem test_no_word : ∀ n ∈ [0, 16, 64], decodeTableWord n 0xFFFF = none := by decide
/-- A bundle of 0 is eleven slots without an operation. -/
theorem test_empty_bundle : decodeBundle 3 0 = [.anop 3 false 0 0, .dnop 3 0 0, .rnop 3 0 0, .vnop 3 0 0 0 0 0 0, .vnop 3 1 0 0 0 0 0,
    .vnop 3 2 0 0 0 0 0, .vnop 3 3 0 0 0 0 0, .snop 3 0 0 0 0 0, .mnop 3 0 0 0 0 0 0, .anop 3 true 0 0, .cnop 3 0 0 Env.clean] := by decide +kernel
/-- A bundle whose slots, from the array slot down, hold the words written out below from their tables. -/
def bundle (array drain recon : BitVec 40) (v0 v1 v2 v3 : BitVec 56) (scalar : BitVec 48) (dma load ctl : BitVec 40) : BitVec 512 :=
  array ++ drain ++ recon ++ v0 ++ v1 ++ v2 ++ v3 ++ scalar ++ dma ++ load ++ ctl
/-- AMAC (slot 5, SWAP, ISTR 2), DRAIN (slot 63, A, CLOSE, OSTRA 1, OSTRB 2, GB 8, NGL 3, w = 4), RPRED (ISTR 1, PBLK 3, TOK 127, GB 33), VADD,
VLD, VPACK, VTERN, SADDI (S1 = S2 − 1), MIN, ALOADM in the LOAD field and LOOP. -/
theorem test_bundle_slots : decodeBundle 3 (bundle
    (0b0001#4 ++ 5#6 ++ 1#1 ++ 2#2 ++ 0#27)
    (0b0001#4 ++ 63#6 ++ 0b01#2 ++ 1#1 ++ 1#2 ++ 2#2 ++ 8#6 ++ 3#3 ++ 3#3 ++ 0#1 ++ 0#10)
    (0b0001#4 ++ 1#2 ++ 3#18 ++ 127#7 ++ 33#6 ++ 0#3)
    (0x01#6 ++ 4#5 ++ 5#5 ++ 6#5 ++ 0#35)
    (0x10#6 ++ 7#5 ++ 0#5 ++ 0#5 ++ 9#5 ++ 0xFFFF#16 ++ 0#14)
    (0x14#6 ++ 0#5 ++ 1#5 ++ 2#5 ++ 3#5 ++ 4#16 ++ 7#3 ++ 1#1 ++ 0#1 ++ 16#6 ++ 2#3)
    (0x30#6 ++ 1#5 ++ 2#5 ++ 3#5 ++ 0x12345#35)
    (0x08#6 ++ 1#5 ++ 2#5 ++ 0#5 ++ 0#11 ++ 0xFFFF#16)
    (0x1#4 ++ 1#5 ++ 2#5 ++ 4#5 ++ 15#4 ++ 0#17)
    (0x3#4 ++ 2#2 ++ 511#9 ++ 1#1 ++ 0x2FFFF#18 ++ 0#6)
    (0x1#4 ++ 4095#12 ++ 1#1 ++ 17#5 ++ 0#1 ++ 9#17)) =
    [.amac 3 5 true 2 0 Env.clean, .drain 3 63 1 true 1 2 8 3 3 false 0, .rpred 3 1 3 127 33 0 Env.clean, .vadd 3 0 4 5 6 0,
     .vld 3 1 7 0 0 (9#5 ++ 0xFFFF#16 ++ 0#14) Env.clean, .vpack 3 2 0 1 2 (3#5 ++ 4#16 ++ 7#3 ++ 1#1 ++ 0#1 ++ 16#6 ++ 2#3),
     .vtern 3 3 1 2 3 0x12345 Env.clean, .saddi 3 1 2 0 0xFFFF, .min 3 1 2 4 15 0, .aloadm 3 true 2 511 true 0x2FFFF 0 Env.clean,
     .loop 3 4095 true 17 false 9 Env.clean] := by decide +kernel
/-- BRUN (slot 6, b = 64, BANK, ISTR 3, PE = 8), DFILL, RCHK, VTCNT, SSET, MCOPY, BLOAD in the LOAD field and DWAIT. -/
theorem test_bundle_other_operations : decodeBundle 0 (bundle
    (0x9#4 ++ 6#6 ++ 63#6 ++ 1#1 ++ 0#1 ++ 3#2 ++ 0#1 ++ 7#3 ++ 0#16)
    (0x4#4 ++ 9#6 ++ 2#2 ++ 0#28)
    (0x4#4 ++ 3#2 ++ 5#18 ++ 64#7 ++ 6#3 ++ 0#6)
    (0x33#6 ++ 31#5 ++ 30#5 ++ 29#5 ++ 1#35)
    (0x34#6 ++ 0#5 ++ 0#5 ++ 0#5 ++ 0#35) 0 0
    (0x0D#6 ++ 0#5 ++ 8#5 ++ 9#5 ++ 0#23 ++ 11#4)
    (0x3#4 ++ 5#5 ++ 6#5 ++ 7#5 ++ 1#4 ++ 0#17)
    (0x8#4 ++ 1#2 ++ 255#9 ++ 1#1 ++ 0#1 ++ 0#23)
    (0x3#4 ++ 0#20 ++ 0x8001#16)) =
    [.brun 0 6 63 true false 3 false 7 0 Env.clean, .dfill 0 9 2 0 Env.clean, .rchk 0 3 5 64 6 0 Env.clean, .vtcnt 0 0 31 30 29 1 Env.clean,
     .vnop 0 1 0x34 0 0 0 0, .vnop 0 2 0 0 0 0 0, .vnop 0 3 0 0 0 0 0, .sset 0 0 8 9 11, .mcopy 0 5 6 7 1 0,
     .bload 0 true 1 255 true false 0 Env.clean, .dwait 0 0x8001 0 Env.clean] := by decide +kernel

/-! ### Small states -/

/-- The module powered and in service. -/
def on : State :=
  { State.reset with
    pwr := { Pwr.reset with powered := true, supply := .normal, ok := true },
    clk := { Clk.reset with pll := true, refOk := true },
    sec := { Sec.reset with boot := 7, keys := true },
    panel := { Panel.reset with link0 := true } }

/-- Station 0 runs with this core. -/
def runs (c : StCore) : State := { on with stns := [(0, { Station.reset with core := c, mode := .running })] }

/-- The same with these bytes in its scratchpad. -/
def holds (c : StCore) (m : Tab Byte) : State :=
  { on with stns := [(0, { Station.reset with core := c, mode := .running, scratch := m })] }

/-- Element-major blocks from address 0 in the scratchpad, packed sums from 8,192, weight strips in the Range, plane-major blocks. -/
def tensors : List Handle :=
  [{ scratch := true, base := 0, scale := 0, pitch := 2, plane := false, hkind := 0, out := true, nblk := 8, rsv := false },
   { scratch := true, base := 8192, scale := 0, pitch := 0, plane := false, hkind := 1, out := true, nblk := 8, rsv := false },
   { scratch := true, base := 65536, scale := 0, pitch := 0, plane := false, hkind := 2, out := false, nblk := 8, rsv := false },
   { scratch := true, base := 131072, scale := 0, pitch := 2, plane := true, hkind := 0, out := false, nblk := 8, rsv := false }]

/-- A stream on the handle of that number, at position 0. -/
def strm (k : Nat) : BitVec 64 := BitVec.ofNat 64 (2 ^ 30 + k * 2 ^ 25)

/-- A task of eight bundles whose generator `k` of each role is named. -/
def task0 : Task :=
  { Task.empty with
    image := { nb := 8, need := false, port := List.replicate 32 1023, ilv := List.replicate 32 0 },
    handles := tensors,
    gens := [{ seed := 1, group := 0, role := 4, gen := 0, rsv := false }, { seed := 2, group := 1, role := 6, gen := 1, rsv := false },
             { seed := 3, group := 2, role := 3, gen := 2, rsv := false }, { seed := 5, group := 4, role := 2, gen := 4, rsv := false }]
            ++ (List.range 8).map fun k => { seed := 8 + k, group := 3, role := 1, gen := 8 + k, rsv := false } }

/-- Registers at the ends of the scratchpad, and streams on the tensors. -/
def core0 : StCore :=
  { StCore.reset with
    task := task0,
    scalars := [(1, 5), (2, 0xFFFFFFFF), (3, BitVec.ofNat 32 (scratchSize - 4)), (4, BitVec.ofNat 32 (scratchSize - 512)),
                (5, BitVec.ofNat 32 (scratchSize - 32)), (6, 64), (7, 4096), (8, 0), (9, BitVec.ofNat 32 (scratchSize - 136)),
                (10, BitVec.ofNat 32 (scratchSize - 168)), (12, BitVec.ofNat 32 (windowBase - 64))],
    streams := [(0, strm 0), (4, strm 2), (5, strm 3), (8, strm 0), (9, strm 1), (1, strm 1)],
    gens := [(0, 77), (1, 78), (2, 79), (4, 81), (8, 82), (9, 83), (10, 84), (11, 85), (12, 86), (13, 87), (14, 88), (15, 89)] }

/-- A block of two-bit elements at address 0. -/
def block0 : Tab Byte := [(3, 9), (7, 2), (8, 0x1B), (9, 0xE4)]

/-! ### Witnesses: for each clause of a statement, operands that meet its conditions -/

theorem wit_BundlesClose_slots : ∀ k < 11, Accepts (runs core0) 0 k := by decide +kernel
theorem wit_ScalarResults : Accepts (runs core0) 0 7 := by decide +kernel
theorem wit_StreamRegisters : Accepts (runs core0) 0 7 ∧ streamReserved 11 ((core0.sreg 6 ++ core0.sreg 8 : BitVec 64)) = false := by
  decide +kernel
theorem wit_VectorResults : Accepts (runs core0) 0 3 ∧ Accepts (runs core0) 0 6 := by decide +kernel
theorem wit_VectorResults_vcvt : Sound (holds core0 block0) 0 ∧ Accepts (holds core0 block0) 0 3 := by decide +kernel

/-- S[SA] of a vector access, in its AUX bits. -/
def auxOf (sa low : Nat) : BitVec 35 := BitVec.ofNat 35 (sa * 2 ^ 30 + low)

theorem wit_ScratchpadReads :
    let s := runs core0
    Sound s 0 ∧ (Accepts s 0 7 ∧ core0.saddr 3 0 % 4 = 0 ∧ core0.saddr 3 0 + 4 = scratchSize) ∧
    (Accepts s 0 6 ∧ bits (auxOf 4 0).toNat 13 0 = 0 ∧ core0.vaddr (auxOf 4 0) 32 % 32 = 0 ∧ core0.vaddr (auxOf 4 0) 32 + 512 = scratchSize) ∧
    (Accepts s 0 3 ∧ core0.vaddr (auxOf 5 0) 32 % 32 = 0 ∧ core0.vaddr (auxOf 5 0) 32 + 32 = scratchSize) := by decide +kernel

theorem wit_ScratchpadWrites :
    let s := runs core0
    Sound s 0 ∧ (Accepts s 0 7 ∧ core0.saddr 3 0 % 4 = 0 ∧ core0.saddr 3 0 + 4 = scratchSize) ∧
    (Accepts s 0 3 ∧ core0.vaddr (auxOf 4 0) 32 % 32 = 0 ∧ core0.vaddr (auxOf 4 0) 32 + 512 = scratchSize) ∧
    (Accepts s 0 4 ∧ core0.vaddr (auxOf 3 0) 4 % 4 = 0 ∧ core0.vaddr (auxOf 3 0) 4 + 4 = scratchSize ∧ core0.ternFree ≤ core0.tick) := by
  decide +kernel

/-- AUX of a VPACK of two-bit elements that draws from generator 0, and of a VTERN that draws from generator 1. -/
theorem wit_PackAndTernarisationBegin :
    let s := runs core0
    (let aux := auxOf 9 0x800
     Accepts s 0 3 ∧ bits aux.toNat 2 0 ≠ 7 ∧ bits aux.toNat 8 3 + 1 ≤ 64 ∧ core0.vaddr aux 32 % 8 = 0 ∧
       core0.vaddr aux 32 + burst 2 = scratchSize ∧ core0.task.unnamed 0 1 [4] = none ∧ core0.packLeft 0 = 0) ∧
    (let aux := auxOf 5 8
     Accepts s 0 6 ∧ Sound s 0 ∧ core0.ternFree ≤ core0.tick ∧ bits aux.toNat 13 9 = 0 ∧ bits aux.toNat 2 0 ≠ 7 ∧
       bits aux.toNat 8 3 = 1 ∧ core0.vaddr aux 32 % 32 = 0 ∧ core0.vaddr aux 32 + 32 = scratchSize ∧ core0.task.unnamed 1 1 [6] = none) ∧
    (let aux := auxOf 10 0x2000
     bits aux.toNat 5 0 = 0 ∧ bits aux.toNat 13 13 = 1 ∧ core0.vaddr aux 32 % 8 = 0 ∧ core0.vaddr aux 32 + 168 = scratchSize) := by
  decide +kernel

theorem wit_TransfersBegin :
    let s := runs core0
    (Accepts s 0 8 ∧ (core0.sreg 6).toNat = 64 ∧ (core0.sreg 12).toNat + 64 = windowBase ∧ (core0.sreg 7).toNat % 32 = 0) ∧
    core0.dmas.all (fun d => d.tag != 3 || d.done) = true ∧ core0.task.kat = false ∧
    overlaps (core0.sreg 12).toNat (core0.sreg 7).toNat 64 = false ∧ (core0.sreg 7).toNat + 64 ≤ scratchSize ∧
    (let s := { runs core0 with mem := { (runs core0).mem with pages := [(0, { PageEntry.none with valid := true, cls := .d, loc := 1, owner := 0 })] } }
     s.pageCheck false 0 (rpageOf 4096) = none ∧ s.pageCheck true 0 (rpageOf 4096) = none ∧ core0.task.desc.parcel = 0) := by decide +kernel

/-- In the last bundle of a loop; a transfer is over. -/
def core1 : StCore :=
  { core0 with
    pc := 3, tick := 100, atick := 100, loops := [{ pc := 2, body := 1, trips := 2 }],
    pend := [{ due := 100, dest := .scalar 1, bits := 9, vec := [] }, { due := 101, dest := .stream 2, bits := 8, vec := [] }],
    spw := [(16, [1, 2])], dmas := [{ tag := 3, mop := 1, banks := [], spa := 0, spb := 0, range := 0, len := 32, moved := 32, done := true }] }

theorem wit_BundlesClose_control :
    let s := runs core1
    Closes s 0 ∧ (afterBundle core1.loops core1.pc).1 < core1.task.image.nb ∧ core1.loops.length < 4 ∧ (s.stn 0).wc = [] ∧ core1.stepHold = 0 ∧
    (∀ d ∈ core1.dmas, d.done = true) ∧ core1.union = 0 := by decide +kernel
theorem wit_BundlesClose_loop : Closes (runs core0) 0 ∧ core0.pc + 7 < core0.task.image.nb := by decide +kernel

/-- A dense plane, a bank and nothing under way. -/
def core2 : StCore :=
  { core0 with
    plane0 := { Plane.empty with fill := .full }, bank0 := { Bank.empty with fill := .full, n := 1 } }

theorem wit_ArrayOperationsIssue :
    let s := holds core2 block0
    Sound s 0 ∧ core2.bruns = [] ∧
    (Accepts s 0 0 ∧ (core2.plane 0).fill = .full ∧ core2.handleOf (core2.stream 0) = tensors[0]? ∧ GoodBlock s 0 tensors[0] 0 ∧
      core2.openDeficit 63 core2.tile.id 0 = 0) ∧
    (Accepts s 0 9 ∧ (s.stn 0).loadInBundle = false ∧ core2.load = none ∧ srKind (core2.stream 4) = 1 ∧
      core2.handleOf (core2.stream 4) = tensors[2]? ∧ core2.handleOf (core2.stream 5) = tensors[3]? ∧ 0 + countTable 512 ≤ scratchSize) ∧
    ((core2.bank 0).fill = .full ∧ core2.tree = [] ∧ 62 + 2 ≤ 64) := by decide +kernel

theorem wit_DrainOperationsIssue :
    let s := runs core0
    Accepts s 0 1 ∧ core0.task.unnamed 2 1 [3] = none ∧ core0.drainFree ≤ core0.tick ∧ core0.drainHold 63 true = 0 ∧
    core0.outputFault (outputsOf 1 0 0) 0 2 = none ∧ core0.outputFault (outputsOf 1 1 0) 1 0 = none ∧
    (∀ o ∈ outputsOf 1 1 0, ((core0.handleOf (core0.stream (8 + o.2))).map (·.scale)) = some ((core0.closeSlot 63).slot 63).shadowScale) ∧
    (∀ k < 64, (core0.slot k).isOpen = false) ∧ Sound s 0 ∧ core0.handleOf (core0.stream 1) = tensors[1]? ∧
    (tensors[1]).blockAt 0 + 1544 ≤ scratchSize := by decide +kernel

/-- A parameter block at address 1,024: one input block, 64 outputs, L = 16, in the modes 0 and 2. -/
def blockP (mode : Nat) : Tab Byte :=
  [(3, 9), (7, 2), (8, 0x1B), (1028, 4)] ++ (if mode = 2 then [(1029, 2), (1037, 1)] else []) ++ [(1041, 64), (1057, 8), (1061, 12)]

/-- An answer that is good and holds something of it. -/
theorem ok_and {α β : Type} {P : β → Prop} [DecidablePred P] (e : Except α β)
    (h : (match e with | .ok p => decide (P p) | .error _ => false) = true) : ∃ p, e = .ok p ∧ P p := by
  cases e with
  | ok p => exact ⟨p, rfl, of_decide_eq_true h⟩
  | error _ => cases h

theorem wit_ReconOperationsIssue :
    (let s := holds core0 (blockP 0)
     Accepts s 0 2 ∧ Sound s 0 ∧ core0.recFree ≤ core0.tick ∧ core0.finLeft = 0 ∧ core0.handleOf (core0.stream 0) = tensors[0]? ∧
     GoodBlock s 0 tensors[0] 0 ∧ core0.recVisible ≤ core0.tick) ∧
    (∃ p, (State.param (holds core0 (blockP 0)) 0 8 (some false) 3 0 Env.clean).2 = .ok p ∧ core0.task.recRoles 8 p.gensUsed 1 = none) ∧
    (∃ p, (State.param (holds core0 (blockP 0)) 0 8 none 0 4 Env.clean).2 = .ok p ∧ p.kb = 1) ∧
    (∃ p, (State.param (holds core0 (blockP 0)) 0 8 none 3 0 Env.clean).2 = .ok p ∧ p.mode = 0) ∧
    (∃ p, (State.param (holds core0 (blockP 2)) 0 8 (some true) 3 0 Env.clean).2 = .ok p ∧ core0.task.recRoles 8 p.gensUsed 1 = none) :=
  ⟨by decide +kernel, ok_and _ (by decide +kernel), ok_and _ (by decide +kernel), ok_and _ (by decide +kernel), ok_and _ (by decide +kernel)⟩

/-! ### Units of a Station -/

/-- Long after everything under way has become due. -/
def late (c : StCore) : StCore := { c with tick := 900, atick := 900 }

def load1 : Load :=
  { Load.none with id := 1, kind := .dense, n := 1, target := 1, len := 1, reg := strm 2 }
def brun1 (pe pass : Nat) : Brun :=
  { tile := 1, u := 0, s0 := 5, b := 1, bank := 0, add := false, istr := 0, reg := strm 0, pe := pe, pass := pass, vec := 0, overrun := 0, froze := false }
def coreLoad : StCore :=
  { late core2 with load := some load1, plane1 := { Plane.empty with fill := .loading }, loads := [(1, load1)], loadId := 1 }
def coreBrun (pe pass : Nat) (ps : List Nat) : StCore :=
  { late core2 with bruns := [brun1 pe pass], bank0 := { core2.bank0 with passes := ps } }
def prod1 : Product := { slot := 5, u := 3, tile := 2, brun := true, terms := [(0, [(3, 1)])] }
def replay1 : Replay := { slot := 5, tile := 2, brun := false, amacs := [], passes := [], detect := 10 }
/-- A Station whose core runs a replay. -/
def replays : State :=
  { on with stns := [(0, { Station.reset with core := late core0, mode := .running, replay := some replay1 })] }

theorem wit_ArrayEventsTakePlace :
    (let s := holds coreLoad block0
     (s.stn 0).between = true ∧ (s.stn 0).held = none ∧ (s.stn 0).dueLoad = some load1 ∧ coreLoad.task.ended = false ∧ Sound s 0 ∧ coreLoad.loadScratch load1 = true ∧
       (match (s.loadTick 0 load1 Env.clean).2 with | .ok _ => true | .error _ => false) = true) ∧
    (let c := coreBrun 1 0 [0]
     let s := holds c block0
     (s.stn 0).between = true ∧ (s.stn 0).duePass = some (brun1 1 0) ∧ Sound s 0 ∧ (c.bank 0).passes[0]? = some 0 ∧
       ((c.handleOf (strm 0)).map (·.scratch)) = some true ∧ (s.stn 0).dueVectors (brun1 1 0) = 1 ∧
       ((s.passVectors 0 (brun1 1 0) (c.bank 0) 0 1 Env.clean).2.2).isNone = true) ∧
    (((holds (coreBrun 1 0 [0, 1]) block0).stn 0).between = true ∧ ((holds (coreBrun 1 0 [0, 1]) block0).stn 0).dueOverrun = some (brun1 1 0)) ∧
    (let x := (holds (coreBrun 1 1 [0]) block0).stn 0
     x.between = true ∧ x.replay = none ∧ x.queued = [] ∧ x.dueClose = some (brun1 1 1)) ∧
    (let c := { late core0 with tree := [prod1], slots := [(5, { Slot.clear with isOpen := true, tile := 2 })] }
     let x := (holds c []).stn 0
     x.between = true ∧ x.dueSum = true ∧ x.replay = none ∧ x.queued = [] ∧ (c.slot 5).isOpen = true ∧ (c.slot 5).tile = 2) ∧
    ((replays.stn 0).between = true ∧ (replays.core 0).tree = [] ∧ (replays.core 0).bruns = [] ∧ (replays.doReplay 0 replay1 Env.clean).2 = .done) := by decide +kernel

def drain1 : DrainJob :=
  { kind := .drain, due := 3, first := 2, vals := List.replicate 512 5, datum := 0, ostr := 0, reg := strm 0, words := [], gb := 2, ng := 1, w := 2,
    uns := false }
def pack1 : PackJob :=
  { engine := 0, first := 2, free := 128, words := [], due := 130, addr := 1024, xs := List.replicate 512 0, sout := 0, plane := false, uns := false, w := 2,
    gb := 0, ng := 1 }
def par1 : Param := paramOf 1024 ((holds core0 (blockP 0)).stn 0 |>.sbytes 1024 64)
def rec1 : RecJob :=
  { next := 1, draw0 := 1, dec0 := 3, due := 4, par := par1, tok := 3, sel := false, reg := strm 0, ins := [], mags := [], total := 0, s1 := 0,
    counts := [], gb := 8, ng := 1, decs := 1, top := [], skips := [true] }
def fin1 (log : Nat) : FinJob := { due := 16, issue := 0, par := { par1 with audlog := log }, ntok := 4, ga := 4, words := [3, 4, 5, 6] }

theorem wit_UnitWritesTakePlace :
    (let c := { late core0 with drains := [drain1] }
     let x := (holds c []).stn 0
     x.between = true ∧ x.held = none ∧ c.task.ended = false ∧ x.dueDrain = some drain1 ∧ c.drainTarget drain1 = some (tensors[0], 0) ∧
       (drainBlock false false 2 0 drain1.vals (c.finishDither 2 1 512 []).2).1.length ≤ scratchSize) ∧
    (let x := (holds { late core0 with packs := [pack1] } []).stn 0; x.between = true ∧ x.duePack 0 = some pack1) ∧
    (let x := (holds { late core0 with recs := [rec1] } (blockP 0)).stn 0; x.between = true ∧ x.dueRec = some rec1) ∧
    (let s := holds { late core0 with fins := [fin1 2] } (blockP 0); (s.stn 0).between = true ∧ (s.stn 0).dueFin = some (fin1 2) ∧ Sound s 0) := by
  decide +kernel

/-- A page of Parcel 0 in Tier H, written by the task of Station 0. -/
def page0 : PageEntry := { PageEntry.none with valid := true, cls := .d, loc := 1, lstack := 0, lframe := 7, owner := 0 }
def dma1 (mop spb range : Nat) : Dma :=
  { tag := 3, mop := mop, banks := [], spa := 64, spb := spb, range := range, len := 32, moved := 0, done := false }
def moves (mop spb range : Nat) : State :=
  let s := holds { late core0 with dmas := [dma1 mop spb range] } [(70, 9)]
  { s with mem := { s.mem with pages := [(0, page0)] }, parcels := [(0, { Parcel.absent with st := .active, stations := 1#64 })] }

theorem wit_StationTimePasses_dma :
    (let s := moves 3 4096 0
     (s.stn 0).snap = none ∧ (s.stn 0).mode = .running ∧ Sound s 0 ∧
       (s.core 0).dmas.find? (fun d => d.tag == 3 && !d.done) = some (dma1 3 4096 0)) ∧
    (match ((moves 1 0 128).stnRead 0 0 128 32 Env.clean).2 with | .ok bs => decide (bs = List.replicate 32 0) | .error _ => false) = true ∧
    (let s := moves 2 0 128
     s.writeCheck 0 0 128 32 = none ∧ s.movingAt 128 32 = false ∧ (s.post 0 128 ((s.stn 0).sbytes 64 32) .good).2 = none) := by decide +kernel

/-- Station 0 holds a bundle. -/
def waits (w : Wait) (need : Nat) (m : StMode) : State :=
  { on with stns := [(0, { Station.reset with core := core0, mode := m, held := some { why := w, need := need, ops := [(7, .snop 0 0 0 0 0 0)] } })] }

theorem wit_StationTimePasses :
    (let x := (waits .drainHold 4 .running).stn 0
     x.mode = .running ∧ x.held = some { why := .drainHold, need := 4, ops := [(7, .snop 0 0 0 0 0 0)] } ∧ Wait.isFreeze .drainHold = false ∧
       x.overdue = false ∧ core0.load = none ∧ ((waits .drainHold 4 .running).idleTo 0 (core0.tick + 4 - 1) Env.clean).2.isNone = true ∧
       core0.recs = [] ∧ Sound (waits .drainHold 4 .running) 0) ∧
    (core0.arrivedAll .late = true ∧ core0.arrivedAll (.dwait 8) = true ∧ ((waits .late 0 .running).stn 0).held.isSome = true) ∧
    ((({ on with stns := [(0, { Station.reset with core := core0, mode := .rerun })] } : State).stn 0).mode = .rerun ∧ core0.dmas = []) ∧
    (let x := (runs core0).stn 0; x.mode ≠ .scrub ∧ x.secded = true ∧ core0.chkCtl.getLsbD 1 = true ∧ x.snap = none ∧ x.flips = []) ∧
    (({ on with stns := [(0, { Station.reset with mode := .scrub })] } : State).stn 0).mode = .scrub := by decide +kernel

def atom1 : Atomic := { id := 5, stn := 0, ctl := 4, addr := 0, bytes := List.replicate 1544 0, parcel := 0 }
def adds : State :=
  let s := runs { core0 with task := { task0 with acksOut := [5] } }
  { s with mem := { s.mem with pages := [(0, page0)], atomics := [atom1], acks := [(5, 0, 1)] } }

theorem wit_AtomicAddsTakePlace :
    adds.mem.atomics.find? (fun x => x.ctl == 4 && !adds.movingAt x.addr 1544) = some atom1 ∧ (pagesOf 0 1544).findSome? adds.stackRefuses = none ∧ Unperturbed adds ∧
    adds.dep.adders.contains (stackNum (adds.page 0).loc (adds.page 0).lstack) = false ∧ adds.poisonAt 0 1544 = none ∧
    adds.mem.acks.find? (fun a => a.1 == 5 && a.2.1 == 0) = some (5, 0, 1) ∧ (adds.core 0).task.acksOut.contains 5 = true := by decide +kernel

/-! ### Task graphs -/

/-- An image of eight bundles at address 0. -/
def image0 : List Byte := [8, 0, 1] ++ List.replicate 75 0 ++ [255, 255] ++ List.replicate 48 0

/-- A descriptor of task 5, SERIAL 1, of Parcel 0 for Station 0. -/
def desc0 (kind depd dept deadline ownkind : Nat) : List Byte :=
  [1, BitVec.ofNat 8 kind, 0, 0] ++ natLe 2 1 ++ [0, 0] ++ List.replicate 24 0 ++ natLe 2 depd ++ natLe 2 dept ++ natLe 2 5 ++ [0, 0] ++
    natLe 8 deadline ++ natLe 4 1 ++ [0, 0, BitVec.ofNat 8 ownkind, 0] ++ List.replicate 72 0

/-- Parcel 0 is active with Stations 0 and 1, and has the page of address 0. -/
def active : State :=
  { on with parcels := [(0, { Parcel.absent with st := .active, stations := 3#64, udp := 7000 })],
            mem := { on.mem with pages := [(0, page0)] } }
def graph0 : State := active.rput 0 image0

theorem wit_DescriptorsAreAcceptedOrRejected :
    (graph0.tickTo 9).tablesOf (descOf (desc0 0 1 0 0 0)) = ([], []) ∧ (graph0.tickTo 9).trk.pending = [] ∧
    (∀ depd < 2, (graph0.tickTo 9).descCheck 0 (descOf (desc0 0 depd 0 0 0)) .graph [] [] = none ∧
      let d := descOf (desc0 0 depd 0 0 0)
      (graph0.tickTo 9).trackerRead 0 d.htab (16 * d.nh) = none ∧ (graph0.tickTo 9).trackerRead 0 d.gtab (8 * d.ngen) = none) ∧
    (graph0.tickTo 9).descCheck 0 (descOf (desc0 6 0 0 0 0)) .graph [] [] = some 0x0130#16 := by decide +kernel

def entry0 (kind depd dept deadline : Nat) (st : TState) : TrkEntry :=
  { TrkEntry.free with st := st, desc := descOf (desc0 kind depd dept deadline 0), depd := depd, dept := dept }
/-- Task 5 is in the table of Facet 0, and Stations 0 and 1 are Ready. -/
def tasks (e : TrkEntry) : State :=
  { graph0 with trk := { graph0.trk with table := [(5, e)], pending := [(0, 9#64, 0), (0, 8#64, 20000)] },
                pwr := { graph0.pwr with stn := [(0, .ready), (1, .ready)] } }
def ready0 : State := tasks (entry0 0 0 0 0 .ready)

theorem wit_TasksAreDispatched :
    let u := ready0.tickTo 9
    (u.freeStn 0 = true ∧ u.nextTask 0 = some (5, entry0 0 0 0 0 .ready) ∧ (u.stn 0).katDue = false ∧ (u.stn 0).trackPtr = 0 ∧
      (match u.imageFor 0 (entry0 0 0 0 0 .ready) with | .ok im => decide (im.nb = 8) | .error _ => false) = true) ∧
    (let v := ({ ready0 with stns := [(0, { Station.reset with mode := .running }), (1, { Station.reset with mode := .running })] } : State).tickTo 9
     (v.stn 0).mode = .running ∧ v.nextTask 0 = some (5, entry0 0 0 0 0 .ready) ∧ (entry0 0 0 0 0 .ready).kat = false ∧
       v.trackerRead 0 (entry0 0 0 0 0 .ready).desc.prog 128 = none ∧ (v.stn 0).preload = none) ∧
    bestOf 0 (u.tasksFor 0 fun e => e.st == .ready && e.desc.kind == 0 && e.desc.stmask.testBit 0) = some (5, entry0 0 0 0 0 .ready) := by
  decide +kernel

/-- Task 5 runs on Station 0. -/
def running0 (c : StCore) : State :=
  let s := tasks { entry0 0 0 0 0 .running with stn := some 0 }
  { s with stns := [(0, { Station.reset with core := c, mode := .running, owner := some 0, scratch := block0 })] }
def ended0 : StCore :=
  { core0 with task := { Task.empty with desc := descOf (desc0 0 0 0 0 0), ended := true, endTick := 3 }, tick := 4, slots := [(3, { Slot.clear with isOpen := true, tile := 2 })] }

/-- A page-move task of the page at address 0 and a test, which have ended. -/
def endedMove : StCore :=
  { ended0 with task := { ended0.task with
      desc := descOf (desc0 1 0 0 0 0),
      handles := [{ scratch := false, base := 0, scale := 0x0100, pitch := 0, plane := false, hkind := 2, out := false, nblk := 16384, rsv := false }] } }
def endedTest : StCore := { ended0 with task := { ended0.task with kat := true } }

theorem wit_TasksComplete :
    (let u := (running0 ended0).tickTo 9
     u.taskDone 0 = true ∧ (u.idleTo 0 (u.core 0).lateDue Env.clean).2 = none ∧ (u.core 0).task.encodes = [] ∧
       ((u.core 0).closeAll []).task.encodes = [] ∧ ((u.core 0).closeAll []).task.kat = false ∧ ((u.core 0).closeAll []).task.desc.kind = 0) ∧
    (let u := (running0 endedMove).tickTo 9
     let k := ((u.core 0).closeAll []).task
     u.taskDone 0 = true ∧ (u.idleTo 0 (u.core 0).lateDue Env.clean).2 = none ∧ (u.core 0).task.encodes = [] ∧ k.encodes = [] ∧ k.kat = false ∧
       k.desc.kind = 1 ∧ movesOf k.desc.facet k.desc.taskid k.desc.parcel k.handles ≠ []) ∧
    (let u := (running0 endedTest).tickTo 9
     let w := (u.idleTo 0 (u.core 0).lateDue Env.clean).1
     u.taskDone 0 = true ∧ (u.idleTo 0 (u.core 0).lateDue Env.clean).2 = none ∧ ((w.core 0).closeAll []).task.kat = true ∧
       ((w.core 0).closeAll []).task.encodes = [] ∧ (u.core 0).task.encodes = [] ∧
       w.holder 0 = some 0 ∧ (w.parcel 0).st = .active ∧ w.isWithdrawn 0 = false) := by decide +kernel

/-- A token of SERIAL 1 for task 5, on DEPD or on DEPT. -/
def token0 (dept : Bool) : BitVec 64 := BitVec.ofNat 64 (2 ^ 40 + 5 * 2 ^ 20 + (if dept then 2 ^ 34 else 0))

theorem wit_TrackerEventsTakePlace :
    (let u := (tasks (entry0 0 1 0 0 .waiting)).tickTo 9
     let w := (token0 false).toNat
     bits w 33 32 = 0 ∧ bits w 19 8 = 0 ∧ bits w 35 35 = 0 ∧ bits w 31 20 = 5 ∧ (u.entry 0 5).st = .waiting ∧ (u.entry 0 5).desc.serial = bits w 63 40 ∧
       (u.entry 0 5).desc.parcel = bits w 39 36 ∧ (u.entry 0 5).depd ≠ 0) ∧
    tokenCancels (token0 false ||| 0x800000000#64) (token0 false) = true ∧
    (bits (token0 true).toNat 34 34 = 1 ∧ (((tasks (entry0 0 0 1 0 .waiting)).tickTo 9).entry 0 5).dept ≠ 0) ∧
    (let u := (tasks (entry0 0 0 0 9 .ready)).tickTo 9
     (u.entry 0 5).desc.deadline = 9 ∧ serialDist 48 u.aon 9 = 0 ∧ (u.entry 0 5).st = .ready) ∧
    (let u := (running0 core0).tickTo 13000
     (u.stn 0).mode = .running ∧ (u.core 0).task.dispatch + 13000 = u.aon ∧ (u.core 0).task.kat = false) := by decide +kernel

/-- The tables of a test fit what a tracker reads of them without an error, in a module whose memory holds none. -/
theorem katTables_length (s : State) (n : Nat) : (s.katTables n).1.length ≤ 16 ∧ (s.katTables n).2.length ≤ 64 := by
  have h (α β : Type) (f : List Byte → α) (p : α → Bool) (a k : Nat) (b : List Byte) : (((tableOf a k b).map f).filter p).length ≤ k :=
    Nat.le_trans (List.length_filter_le _ _) (by simp [tableOf])
  refine ⟨h _ Unit _ _ _ _ _, ?_⟩
  unfold State.katTables
  dsimp only
  split
  · simp
  · exact h _ Unit _ _ _ _ _

theorem wit_TasksComplete_tests :
    let u := on.tickTo (1625 * 63)
    (u.aon % 104000 = 1625 * 63 ∧ u.isWithdrawn 63 = false ∧ u.hasTest 63 = false ∧ u.trk.pending = []) ∧
    (∃ tid rest, u.freeTids 3 = tid :: rest) ∧
    u.trackerRead 3 0xF0000000000 (16 * (u.katTables 63).1.length) = none ∧ u.trackerRead 3 0xF0000000000 (8 * (u.katTables 63).2.length) = none ∧
    (on.tickTo 0).dep.adders.contains 19 = false := by
  have free (k : Nat) : ((on.tickTo (1625 * 63)).entry 3 k).st = .free := by
    have h : (on.tickTo (1625 * 63)).trk.table = [] := by decide +kernel
    unfold State.entry; rw [h]; rfl
  have reads : (∀ k ≤ 16, (on.tickTo (1625 * 63)).trackerRead 3 0xF0000000000 (16 * k) = none) ∧
      ∀ k ≤ 64, (on.tickTo (1625 * 63)).trackerRead 3 0xF0000000000 (8 * k) = none := by decide +kernel
  refine ⟨by decide +kernel, ?_, reads.1 _ (katTables_length _ _).1, reads.2 _ (katTables_length _ _).2, by decide +kernel⟩
  refine List.exists_cons_of_length_pos (List.length_pos_of_mem (a := Config.freeTaskId (on.tickTo (1625 * 63)).free 3 % 4096) ?_)
  simp only [State.freeTids, free]
  exact List.mem_filter.mpr ⟨List.mem_map.mpr ⟨0, by simp, rfl⟩, rfl⟩

/-! ### Memory tiers and links inside the package -/

def buffer0 : WcBuf := { region := 2047, bytes := [(0, 5), (1023, 6)] }
/-- Station 0 holds a write-combining buffer at the end of page 0. -/
def buffered : State := { active with stns := [(0, { Station.reset with core := core0, mode := .running, wc := [buffer0] })] }

/-- A buffer of the window page whose base is page 7 of the window region, whole or not. -/
def bufferW (k : Nat) : WcBuf := { region := (7340032 + 7) * 2048, bytes := (List.range k).map fun i => (64 + i, 5) }
def window0 : Window := { base := 7340032, pages := 8, module := 300, parcel := 2, rbase := 0, perm := 3 }
def bufferedW (k : Nat) : State :=
  { active with
    parcels := [(0, { Parcel.absent with st := .active, stations := 3#64, windows := [(1, window0)] })],
    stns := [(0, { Station.reset with core := core0, mode := .running, wc := [bufferW k] })] }

theorem wit_WriteCombiningBuffersFlush :
    (let at0 := 2047 * 1024
     (buffered.stn 0).wc.find? (fun b => b.region == 2047) = some buffer0 ∧ buffered.movingAt at0 1 = false ∧ isWindow at0 = false ∧
       Unperturbed buffered ∧ (buffer0.bytes.map (·.1)).Nodup ∧ (∀ p ∈ buffer0.bytes, p.1 < 1024) ∧ isSystem at0 = false ∧
       partSector buffer0.bytes = some 0) ∧
    buffered.movingAt 0 1 = false ∧ (buffered.stn 0).wc.find? (fun b => b.region == 0) = none ∧
    (let at0 := (bufferW 64).region * 1024
     ∀ k ∈ [64, 63], ((bufferedW k).stn 0).wc.find? (fun b => b.region == (bufferW 64).region) = some (bufferW k) ∧ isWindow at0 = true ∧
       (bufferedW k).movingAt at0 1 = false ∧ ((bufferedW k).stn 0).mode = .running ∧ (tkeys (bufferW k).bytes).headD 0 = 64 ∧
       (bufferW k).bytes.length = k ∧ (∀ i < k, (tkeys (bufferW k).bytes).contains (64 + i) = true) ∧
       ((bufferedW k).parcel 0).windowAt (rpageOf at0) = some window0) := by decide +kernel

/-- A move of page 0 to Tier H stack 2. -/
def move0 (b : Bool) : Move :=
  { facet := 4, tid := 0, parcel := 0, rpage := 0, ttier := 1, tstack := 2, started := b, dframe := if b then 9 else 0, chunk := 0 }
def moving (b : Bool) : State :=
  { active with
    parcels := [(0, { Parcel.absent with st := .active, stations := 3#64, udp := 7000, quotaH := 1 })],
    mem := { active.mem with moves := [move0 b], cells := [(physKey 4 7 5, 6)] } }

/-- A free frame of a stack is found, whichever frame is tried first. -/
theorem pickFrame_some (s : State) (k f : Nat) (h : f < framesOf k) (h' : s.frameFree k f = true) : ∃ r g, s.pickFrame k = (r, some g) := by
  have : ((List.range (framesOf k)).map fun i => (Config.frameChoice s.mem.frameDraw + i) % framesOf k).find? (fun f => s.frameFree k f) ≠ none := by
    intro e
    have := List.find?_eq_none.mp e f (List.mem_map.mpr ⟨(f + framesOf k - Config.frameChoice s.mem.frameDraw % framesOf k) % framesOf k,
      List.mem_range.mpr (Nat.mod_lt _ (by omega)), by
        have h1 := Nat.mod_lt (Config.frameChoice s.mem.frameDraw) (show framesOf k > 0 by omega)
        have h2 := Nat.div_add_mod (Config.frameChoice s.mem.frameDraw) (framesOf k)
        rw [Nat.add_mod, Nat.mod_mod, ← Nat.add_mod]
        rw [show Config.frameChoice s.mem.frameDraw + (f + framesOf k - Config.frameChoice s.mem.frameDraw % framesOf k) =
          f + framesOf k * (Config.frameChoice s.mem.frameDraw / framesOf k + 1) by rw [Nat.mul_add]; omega, Nat.add_mul_mod_self_left,
          Nat.mod_eq_of_lt h]⟩)
    exact this h'
  obtain ⟨g, e⟩ := Option.ne_none_iff_exists'.mp this
  exact ⟨_, g, Prod.ext rfl e⟩

theorem wit_PagesMove :
    (let u := (moving false).tickTo 9
     u.firstMove [] u.mem.moves = some (move0 false) ∧ u.moveAlive (move0 false) = true ∧ (u.page 0).valid = true ∧ (u.page 0).cls = .d ∧
       ((u.page 0).loc == 1 && (u.page 0).lstack == 2) = false ∧ u.usage 0 1 2 0 + 1 ≤ (u.parcel 0).quota 1 2 ∧
       (u.page 0).st ≠ .poisoned ∧ u.moveCheck (move0 false) = none) ∧
    (∃ r f, ((moving false).tickTo 9).pickFrame (move0 false).dest = (r, some f)) ∧
    (let u := (moving true).tickTo 9
     u.mem.moves.find? (fun m => m.started && decide (m.ttier < 2) && m.dest == 6) = some (move0 true) ∧ u.moveCheck (move0 true) = none ∧
       u.framePoison (frameKey 4 7) 0 (2 ^ 21) = none ∧ stackNum (u.page 0).loc (u.page 0).lstack = 4 ∧ (u.page 0).lframe = 7 ∧ NothingWaits u) ∧
    (let s := moving true
     let bad : State := { s with mem := { s.mem with poison := [frameKey 4 7 * 2 ^ 15 + 3] } }
     (bad.tickTo 9).framePoison (frameKey 4 7) 0 (2 ^ 21) = some 3) ∧
    (let s := moving true
     let hot : State := { s with mem := { s.mem with stks := [(6, { Stack.reset with refuse := true })] } }
     (hot.tickTo 9).moveCheck (move0 true) = some (0x0410#16, 6) ∧ (hot.tickTo 9).framePoison (frameKey 4 7) 0 (2 ^ 21) = none) :=
  ⟨by decide +kernel, pickFrame_some _ _ 32767 (by decide +kernel) (by decide +kernel), by decide +kernel, by decide +kernel, by decide +kernel⟩

/-- The last write of frame 98,303 of the last Tier W stack: its eighth chunk, or its erase. -/
def job0 (erase : Bool) : WJob :=
  { stack := 35, frame := 98303, rpage := 0, why := if erase then .erase else .mirror, erase := erase, chunks := if erase then 0 else 1,
    data := frameKey 4 7, tag := none, busy := true }
def writes (erase : Bool) : State :=
  { active with mem := { active.mem with wjobs := [job0 erase], cells := [(physKey 4 7 (2 ^ 21 - 1), 6), (physKey 35 98303 0, 1)] } }

theorem wit_FramesAreProgrammedAndCleared :
    (let u := (writes false).tickTo 9
     u.wjob 35 = some (job0 false) ∧ (job0 false).busy = true ∧ (job0 false).erase = false ∧ (job0 false).why ≠ .abandoned ∧
       (job0 false).chunks = 1 ∧ u.jobError (job0 false) none = none ∧ u.jobError (job0 false) (some 5) = some 5) ∧
    (((writes true).tickTo 9).wjob 35 = some (job0 true) ∧ (job0 true).busy = true ∧ (job0 true).erase = true) ∧
    (let s : State := { on with mem := { on.mem with zeroing := [frameKey 19 32767], cells := [(physKey 19 32767 3, 6)] } }
     s.mem.zeroing.contains (frameKey 19 32767) = true ∧ NothingWaits s) := by decide +kernel

/-- Page 3 is shared by all Parcels, with its home in the last Tier W stack, and poisoned; page 0 is being unmapped. -/
def shared : State :=
  { active with
    mem := { active.mem with
      pages := [(0, page0), (3, { PageEntry.none with valid := true, cls := .wShared, st := .poisoned, loc := 2, lstack := 15, lframe := 8,
                                                      share := 0xFFFF, hstack := 15, hframe := 8 })]
      verify := [(3, 35, 8)], unmaps := [(0, 0, 1, true)] } }

theorem wit_StacksAreKept_pages :
    shared.mem.verify.find? (fun v => v.1 == 3) = some (3, 35, 8) ∧ (shared.page 3).hstack = 15 ∧ (shared.page 3).hframe = 8 ∧
    NothingWaits shared ∧ shared.mem.unmaps.any (fun u => u.1 == 0 && u.2.2.2) = true ∧
    (∀ u ∈ shared.mem.unmaps, u.1 = 0 → shared.oldTask u.2.1 u.2.2.1 = false) ∧
    shared.mem.moves.any (fun m => m.rpage == 0 && m.started) = false ∧ (shared.page 0).cls = .d ∧ (shared.page 0).mirrored = false ∧
    stackNum (shared.page 0).loc (shared.page 0).lstack = 4 ∧ (shared.page 0).lframe = 7 := by decide +kernel

theorem wit_StacksAreKept :
    (1 < (active.tickTo 9).dutyOf 3 ∧ ∀ r ∈ (active.tickTo 9).mem.round, r.1 = 3 → r.2.1 + 13000 ≤ (active.tickTo 9).aon) ∧
    ((∀ i < 16, (active.tickTo 1300).spow (16 * 3 + i) = .off) ∧ ((active.tickTo 1300).stack 19).lastAcc + 1300 ≤ (active.tickTo 1300).aon) ∧
    (∀ i < 16, (({ active with pwr := { active.pwr with stn := (List.range 64).map fun k => (k, .running) } } : State).tickTo 9).spow (16 * 3 + i)
      = .running) := by decide +kernel

/-- A flit of a type for a frame of the stack, with the offset and length of a read, and its CRC. -/
def flit0 (type frame off len : Nat) : WFlit :=
  let f : WFlit := { seq := 4095, tag := 7, aux := 0, payload := natLe 4 frame ++ natLe 2 off ++ natLe 2 len, errs := 12, crc := 0 }
  { f with crc := crc32c (flitBytes f type) }
/-- A tag with its CRC. -/
def tag0 : List Byte := let b := natLe 4 (2 ^ 23 + 2 ^ 25 + 5) ++ natLe 4 9 ++ List.replicate 52 0; b ++ natLe 4 (crc32c b).toNat
def tagFlit : WFlit :=
  let f := { flit0 6 98303 0 0 with payload := natLe 4 98303 ++ tag0 }
  { f with crc := crc32c (flitBytes f 6) }
/-- Link 15 expects flit 4,095 in both directions; command 7 has one flit of its chunk to come. -/
def linked (r : Bool) : State :=
  { active with mem := { active.mem with
      wsl := [(15, { Wsl.reset with
                       down := { LinkDir.reset with expect := 4095, unacked := [4093, 4094], retrain := r }
                       up := { LinkDir.reset with expect := 4095, unacked := [4093, 4094] }
                       cmds := [{ tag := 7, kind := 3, frame := 98303, arg := 7, count := 1023 }] })] } }

theorem wit_WeightStoreCommands :
    let s := linked false
    (s.wslLive 15 = true ∧ flitOk 0 (flit0 0 0 0 0) = true) ∧
    (InOrder s 15 false 1 (flit0 1 98303 8128 64) ∧ flitFrame (flit0 1 98303 8128 64) = 98303 ∧
      flitW16 (flit0 1 98303 8128 64) 4 + flitW16 (flit0 1 98303 8128 64) 6 = 8192) ∧
    (InOrder s 15 false 3 (flit0 3 98303 7 0) ∧ s.mayWrite 35 = true) ∧
    (InOrder s 15 false 4 (flit0 4 1 2 3) ∧ (s.wslOf 15).cmd 7 = some { tag := 7, kind := 3, frame := 98303, arg := 7, count := 1023 }) ∧
    InOrder s 15 false 5 (flit0 5 98303 0 0) ∧
    (InOrder s 15 false 6 tagFlit ∧ flitFrame tagFlit = 98303 ∧ (tagOf ((tagFlit.payload.drop 4).take 64)).isSome = true) ∧
    InOrder s 15 false 8 (flit0 8 0 0 0) ∧
    (InOrder s 15 false 1 (flit0 1 98304 0 1) ∧ InOrder s 15 false 1 (flit0 1 98303 8129 64) ∧ InOrder s 15 false 3 (flit0 3 98304 0 0) ∧
      InOrder s 15 false 5 (flit0 5 98304 0 0) ∧ flitFrame (flit0 5 98304 0 0) = 98304) := by decide +kernel

theorem wit_WeightStoreCommands_illegal :
    (∀ type ∈ [1, 8], flitOk type (flit0 type 98303 0 65) = true ∧ flitLegal (flit0 type 98303 0 65) type = false) ∧
    (∀ type ∈ [3, 5, 6], flitOk type (flit0 type 131072 8 0) = true ∧ flitLegal (flit0 type 131072 8 0) type = false) ∧
    ((linked false).wslOf 15).down.expect = 4095 ∧
    (let s : State := { linked false with pwr := { (linked false).pwr with supply := .abort } }; s.mayWrite 35 = false) := by decide +kernel

theorem wit_LinksOfTheStoreAnswer :
    let s := linked false
    InOrder s 15 true 2 (flit0 2 4094 0 0) ∧ InOrder s 15 true 7 (flit0 7 4094 0 0) ∧ InOrder (s.tickTo 9) 15 true 9 (flit0 9 4094 0 0) ∧
    (∀ type ∈ [10, 11], flitOk type (flit0 type 4094 0 0) = true ∧ flitLegal (flit0 type 4094 0 0) type = true) ∧
    flitOk 2 { flit0 2 0 0 0 with errs := 13 } = false ∧ flitOk 2 { flit0 2 0 0 0 with crc := 0 } = false ∧
    (flitOk 2 (flit0 2 0 0 0) = true ∧ serialDist 12 4095 0 < 0) ∧
    ((linked true).wslOf 15).down.retrain = true ∧ (linked true).wslLive 15 = false ∧
    (∀ m ∈ (s.tickTo 9).mem.moves, m.started = true → m.dest ≠ 35) := by decide +kernel

/-- Seam 12 expects flit 1,023, or retrains. -/
def seamed (r : Bool) : State :=
  { active with seams := [(12, { Seam.reset with
                                   fwd := { LinkDir.reset with expect := 1023, retrain := r, unacked := List.replicate 255 0 }
                                   bwd := { LinkDir.reset with unacked := [3, 4, 5] }
                                   kept := [(true, 4, [9]), (true, 5, [8])] })] }

theorem wit_LinksOfTheStoreAnswer_seams :
    let x := (seamed false).seam 12
    let crc := crc32c ([1, 2] ++ natLe 4 (sideHigh 1023 3 true 0))
    (x.service = true ∧ x.retrains = false ∧ seamOk 1023 3 true 0 crc [1, 2] = true ∧ (x.dir false).expect = 1023 ∧
      (x.dir false).unacked.length = 255) ∧
    seamOk 1023 3 true 0 crc [1, 3] = false ∧
    seamOk 1023 3 true 1 (crc32c ([1, 2] ++ natLe 4 (sideHigh 1023 3 true 1))) [1, 2] = true ∧
    (((seamed true).seam 12).retrains = true ∧ ((seamed true).seam 12).service = true ∧ (seamed true).detour 12 = some [4, 5]) ∧
    ({ x with service := false } : Seam).service = false := by decide +kernel

/-! ### Serving -/

def graphs0 : List GraphEnt :=
  [{ graph := 1, gkind := 0, ntask := 1, template := 2048, argbase := 0, narg := 0 },
   { graph := 2, gkind := 1, ntask := 1, template := 2048, argbase := 0, narg := 0 }]
/-- Recipe 7: 100 tokens, one layer, one KV head. -/
def recipe0 : Recipe := { recipeHead [] with num := 7, v := 100, nlayer := 1, nkvh := 1, d := 64, kvPlain := 1, graphs := graphs0 }
def block (nctx ngen : Nat) (stops : List Nat) : ReqBlock := { ReqBlock.empty with recipe := 7, nctx := nctx, ngen := ngen, stops := stops, ttl := 20 }
/-- A request of two positions and two tokens in a state. -/
def asked (st : RState) : Request :=
  { Request.free with st := st, port := 1, addr := 77, udp := 9, tag := 3, blk := block 2 2 [0xFFFFFFFF], toks := [(0, 8)] }
/-- Module 9 serves, and its request 65,535 is `q`. -/
def serving (q : Request) : State :=
  { (graph0.rput 2048 (desc0 0 0 0 0 0)) with
    modNum := 9, plan := { Plan.reset with force := { gen := 1, baseGen := 0, entries := [], bytes := [] } }
    parcels := [(0, { Parcel.absent with
      st := .active, stations := 3#64, udp := 7000, quotaH := 3, prefixes := [(0, 0)], recipes := [(7, recipe0)], queue := [65535]
      targets := [(9, 0), (8, 4)] })]
    reqs := [(65535, q)] }
/-- A client frame of LEN 4 × words to Parcel 0 about request 65,535. -/
def frame0 (offset : Nat) (pay : List Byte) : SFrame :=
  { port := 0, srcAddr := 77, srcPort := 9, dstPort := 7000, bad := false, udpLen := 24 + pay.length, magic := 0x5850, ver := 1, seq := 0,
    len := BitVec.ofNat 16 pay.length, clientTag := 3, reqWord := 0x8000FFFF, status := 0, modWord := 0, offset := BitVec.ofNat 32 offset
    payload := pay }
/-- A SUBMIT of a prompt of two positions with these context tokens. -/
def submit0 (ts : List Nat) : SFrame :=
  frame0 0 (natLe 4 7 ++ natLe 4 2 ++ natLe 4 1 ++ natLe 4 0 ++ natLe 2 0 ++ natLe 4 0xFFFFFFFF ++ [0, 0] ++ List.replicate 16 255 ++ natLe 6 0
    ++ List.replicate 18 0 ++ tokenBytes ts)

theorem wit_RequestsAreAccepted :
    let u := (serving (asked .free)).tickTo 9
    let fr := submit0 [99]
    Taken u 1 fr 0 ∧ u.submitCheck 0 fr = none ∧
    u.reqs.find? (fun x => x.2.st != .free && x.2.home == 0 && x.2.addr == fr.srcAddr && x.2.udp == fr.srcPort
      && x.2.tag == fr.clientTag && x.2.remote.isNone) = none ∧
    (List.range 65536).find? (fun r => (u.req r).st == .free) = some 0 ∧
    u.reqs.countP (fun x => x.2.parcel == 0 && (x.2.st == .receiving || x.2.st == .queued)) < 4096 := by decide +kernel

theorem wit_ClientFramesAct :
    (let u := (serving (asked .receiving)).tickTo 9
     let fr := frame0 1 (tokenBytes [99])
     u.frameEntry 0 fr = some 65535 ∧ Taken u 2 fr 0) ∧
    (let u := (serving (asked .queued)).tickTo 9
     u.frameEntry 0 (frame0 0 []) = some 65535 ∧ Taken u 3 (frame0 0 []) 0 ∧ (asked .queued).live = true ∧ (asked .queued).dest = none ∧
       (u.servPort 1).isSome = true) ∧
    (let q := { asked .decode with gen := [5, 6, 7] }
     let u := (serving q).tickTo 9
     let fr := frame0 1 (natLe 4 2)
     u.frameEntry 0 fr = some 65535 ∧ Taken u 4 fr 0 ∧ q.dest = none ∧ (q.gen.drop 1).take 2 = [6, 7] ∧ 2 ≤ max 1 (u.frameRoom 1)) ∧
    (let u := (serving (asked .ending)).tickTo 9
     u.frameEntry 0 (frame0 0 []) = some 65535 ∧ Taken u 5 (frame0 0 []) 0) ∧
    frameIllegal 2 (frame0 0 (natLe 4 (2 ^ 18))) = true ∧
    ((serving (asked .ending)).tickTo 9).frameEntry 0 (frame0 0 (natLe 4 (2 ^ 18))) = some 65535 := by decide +kernel

theorem wit_RequestTimersAct :
    (on.portLive none = true ∧ (on.portAddr none).isSome = true) ∧
    (let u := (serving (asked .receiving)).tickTo 1300000
     (u.servPort 1).isSome = true ∧ (asked .receiving).lastPos + 1300000 = u.aon) ∧
    ((asked .decode).live = true ∧ (asked .decode).accept + (asked .decode).blk.ttl = ((serving (asked .decode)).tickTo 20).aon) ∧
    ((asked .ending).endSends ≤ 8 ∧ (asked .ending).lastEnd + 13000 = ((serving (asked .ending)).tickTo 13000).aon) ∧
    (asked .ending).endAt + 13000000 = ((serving (asked .ending)).tickTo 13000000).aon := by decide +kernel

theorem wit_RequestsGoOn_prefill :
    let u := (serving (asked .queued)).tickTo 9
    let q := asked .queued
    u.trk.pending = [] ∧ u.recipe 0 7 = some recipe0 ∧ (u.parcel 0).st = .active ∧ recipe0.graphOf 0 = graphs0[0]? ∧
    (u.parcel 0).queue.head? = some 65535 ∧ recipe0.need (decide (u.freeH 0 65535 < recipe0.need false 4)) 4 ≤ u.freeH 0 65535 ∧
    ((List.range 64).any fun k => (u.parcel 0).stations.getLsbD k && !u.isWithdrawn k) = true ∧ NothingWaits u ∧
    ((((u.modReq 65535 fun q => { q with st := .prefill, packed := false, step := 0 }).modParcel 0 fun y =>
      { y with queue := y.queue.filter fun z => z != 65535 }).modReq 65535 fun q => { q with serial := 1 }).instantiate 0 7 graphs0[0] 65535 0
        none
        (natLe 4 65535 ++ natLe 4 q.blk.nctx ++ natLe 4 q.blk.ngen)).isSome = true := by decide +kernel

theorem wit_RequestsGoOn_decode :
    let u := (serving (asked .decode)).tickTo 9
    let ms := (tkeys u.reqs).filter fun y => (u.req y).st == .decode && (u.req y).parcel == 0 && (u.req y).blk.recipe == 7 && (u.req y).dest.isNone
    let b := u.setNumber 0 7
    recipe0.graphOf 1 = graphs0[1]? ∧ ms = [65535] ∧ ((u.parcel 0).insts.any (fun i => i.ownkind == 1 && i.owner == b) || ms.any u.inGate) = false ∧
    ms = u.nextSet 0 7 ∧ NothingWaits u ∧
    ((ms.foldl (fun s y => s.modReq y fun q => { q with step := q.step + 1 }) ({ u with trk := { u.trk with batch := fput u.trk.batch b ms } } : State)).instantiate
      0 7 graphs0[1] b 1 (some (0, 0)) (natLe 4 b ++ natLe 4 1)).isSome = true := by decide +kernel

def prefilled : Request := { asked .prefill with waitRoom := true }
def shipping (m : Nat) : Request := { asked .shipping with segs := [(0, 0)], dest := some (m, 4, 0), packed := true }

theorem wit_RequestsGoOn_handing :
    (let u := (serving prefilled).tickTo 9
     u.recipe 0 7 = some recipe0 ∧ (u.parcel 0).targets.length = 2 ∧
       pickTarget 2 (u.parcel 0).targetPtr (recipe0.need true 4) (((List.range 2).zip (u.parcel 0).targets).map fun x =>
         u.targetRoom 65535 [0, 2000000] x.1 x.2) = some 1) ∧
    (let u := (serving (shipping 9)).tickTo 9
     (shipping 9).segs.contains (0, 0) = true ∧ u.own = 9 ∧ (∀ f ∈ u.sent, f.req ≠ some 65535)) ∧
    8 ≠ ((serving (shipping 8)).tickTo 9).own := by decide +kernel
theorem wit_RequestsGoOn_blocks :
    (∃ bs, ((serving (shipping 9)).tickTo 9).kvBlocks 65535 0 0 recipe0 2 = .ok bs) ∧
    ((serving { shipping 9 with packed := false }).tickTo 9).kvBlocks 65535 0 0 recipe0 2 = .error 0x0391#16 := by
  have good (s : State) (h : (s.req 65535).packed = true) : ∃ bs, s.kvBlocks 65535 0 0 recipe0 2 = .ok bs := by simp [State.kvBlocks, h]
  have bad (s : State) (h : (s.req 65535).packed = false) (h' : (s.parcel (s.req 65535).parcel).books = []) :
      s.kvBlocks 65535 0 0 recipe0 2 = .error 0x0391#16 := by simp [State.kvBlocks, Parcel.newest, h, h']
  exact ⟨good _ (by decide +kernel), bad _ (by decide +kernel) (by decide +kernel)⟩

/-- A Gate job of request 65,535. -/
def gjob : GateJob := { katJob with req := 65535, v := 2, kat := false }
/-- Gate 3 runs a job with its choice, or has one in its queue. -/
def gates (q : Request) (run : Option (GateJob × Option (Nat × Nat))) (queue : List GateJob) : State :=
  { serving q with gates := [(3, { Gate.reset with run := run, queue := queue })] }

theorem wit_GatesChooseTokens :
    (let u := (gates (asked .decode) none [gjob]).tickTo 9
     (u.gate 3).run = none ∧ u.pwr.silent = false ∧ ((u.nextJob 3).map (·.1)) = some gjob ∧ gjob.kat = false ∧
       u.trackerRead 3 gjob.logits (2 * gjob.v) = none) ∧
    (let s := gates (asked .decode) none [gjob]
     let u := ({ s with mem := { s.mem with pages := [(0, { page0 with loc := 2, cls := .wShared, share := 1, st := .poisoned })] } } : State).tickTo 9
     ((u.nextJob 3).map (·.1)) = some gjob ∧ (u.trackerRead 3 gjob.logits (2 * gjob.v)).isSome = true ∧ (asked .decode).live = true ∧
       (asked .decode).remote = none ∧ (u.servPort 1).isSome = true) ∧
    (let u := (gates (asked .decode) none [katJob]).tickTo 9
     ((u.nextJob 3).map (·.1)) = some katJob) ∧
    (let u := (gates (asked .decode) (some (katJob, none)) []).tickTo 9
     (u.gate 3).run = some (katJob, none) ∧ katJob.kat = true) ∧
    (let u := (gates (asked .decode) (some (gjob, some (99, 0xFFFF))) []).tickTo 9
     (u.gate 3).run = some (gjob, some (99, 0xFFFF)) ∧ (u.servPort 1).isSome = true ∧ (asked .decode).gen.length + 1 < (asked .decode).blk.ngen ∧
       (asked .decode).blk.stops.contains 99 = false ∧ gjob.gstate = 0xFFFF) ∧
    ({ asked .decode with gen := [4] }).blk.ngen = ({ asked .decode with gen := [4] }).gen.length + 1 ∧
    (((gates (asked .decode) (some (gjob, none)) []).tickTo 9).gate 3).run = some (gjob, none) := by decide +kernel
theorem wit_GatesChooseTokens_serial :
    (asked .decode).serial = gjob.serial ∧
    (let u := (gates { asked .decode with serial := gjob.serial + 1 } (some (gjob, some (99, 0xFFFF))) []).tickTo 9
     (u.gate 3).run = some (gjob, some (99, 0xFFFF)) ∧ (u.req gjob.req).serial ≠ gjob.serial) := by decide +kernel

/-- A step of Parcel 0 that still awaits the module 8. -/
def adapting : State :=
  { on with adapts := [{ parcel := 0, step := 6, expected := [8, 9], got := [(9, [])], ended := none }] }
theorem wit_GatesChooseTokens_adaptation :
    ((adapting.tickTo 9).adapts.find? fun a => a.parcel == 0 && a.step == 6).isSome = true ∧
    (∀ a ∈ (adapting.tickTo 9).adapts, a.ended = none ∧ ∃ m ∈ a.expected, ∀ g ∈ a.got, g.1 ≠ m) := by decide +kernel

/-! ### The Traverse -/

/-- Modules 8 and 9, whose ports 17 are joined by their links 17. -/
def survey0 : Survey :=
  { planId := 1, planGen := 2, mods := [(8, 5), (9, 6)], links := [{ modA := 8, linkA := 17, modB := 9, linkB := 17, line := false, len := 0 }],
    ports := [{ module := 8, port := 17, members := 2 ^ 17 }, { module := 9, port := 17, members := 2 ^ 17 }], groups := [], hopMax := 1, transit := 0,
    bytes := [] }
/-- Module 9 with its request 65,535 and its link to module 8 in a state. -/
def joined (q : Request) (l : TLink) : State :=
  let s := serving q
  { s with
    parcels := [(0, { s.parcel 0 with peers := [(8, 4)] })]
    sent := [{ tag := 5, since := 0, stn := none, req := none, parcel := 0, dest := 8, dparcel := 4 }]
    trv := { Trv.reset with
      survey := some survey0, links := [(17, l)], ports := [(17, { TPort.reset with rx := 0xFFFFFF })], routes := [(16, 17)] } }
def link0 (st : LinkSt) : TLink := { TLink.reset with st := st }
def joined0 : State := joined (asked .decode) (link0 .active)
/-- A frame from Parcel 4 of module 8 to Parcel 0 of module 9. -/
def tframe (kind addr : Nat) (pay : List Byte) (dest : Nat := 9) (hops : Nat := 0) : TFrame :=
  let f : TFrame :=
    { port := 17, set := false, sparcel := 4, dparcel := 0, cls := BitVec.ofNat 8 (classOf kind), fver := 1, pseq := 0xFFFFFF, rsv7 := 0,
      dest := BitVec.ofNat 16 dest, src := 8, hops := BitVec.ofNat 16 hops, plangen := 2, len := BitVec.ofNat 16 pay.length, rsv18 := 0, tag := 5
      addr := BitVec.ofNat 64 addr, payload := pay, ecrc := 0 }
  { f with ecrc := crc32c (frameHead kind f ++ pay) }

def writeFrame : TFrame := tframe 1 (2 ^ 21 - 64) (List.replicate 64 7)
def addFrame : TFrame := tframe 2 4096 (List.replicate 1544 0)
def tokenFrame (dept : Bool) : TFrame := tframe 4 0 (natLe 8 (token0 dept).toNat)
def gradFrame : TFrame := tframe 8 0 (natLe 6 0 ++ natLe 2 8 ++ natLe 4 6)
/-- A segment of one block, whole or its header alone. -/
def segFrame (whole : Bool) : TFrame :=
  tframe 7 0 (natLe 2 3 ++ natLe 2 8 ++ [0, 0] ++ natLe 2 1 ++ List.replicate 24 0 ++ (if whole then List.replicate 2056 0 else []))
/-- A frame made here passes check 1, so the checks that follow decide (R375). -/
theorem frameCheck_tframe (u : State) (kind addr : Nat) (pay : List Byte) (d h : Nat) :
    let f := tframe kind addr pay d h
    u.frameCheck kind f =
      if !headLegal kind f ∨ !bodyLegal kind f then some 0x01A2#16
      else if !(u.trv.survey.any fun v => v.planGen == f.plangen.toNat) then some 0x0537#16
      else if [0x01, 0x02, 0x07, 0x08].contains kind ∧ !((u.parcel f.dparcel.toNat).peers.contains (f.src.toNat, f.sparcel.toNat)) then some 0x0630#16
      else if toParcel kind ∧ (u.parcel f.dparcel.toNat).st = .resetting then some 0x0538#16
      else if kind = 0x01 ∨ kind = 0x02 then (u.rangeCheck true f.dparcel.toNat f.addr.toNat f.payload.length).map (·.1)
      else none := by
  have : ecrcOk kind (tframe kind addr pay d h) = true := by simp [ecrcOk, tframe, frameHead]
  simp only [State.frameCheck, this]; rfl

/-- The remote entry of request 3 of module 8. -/
def remote (st : RState) : Request := { asked st with segs := [(0, 0)], remote := some (8, 3), gen := [4, 5, 6] }

theorem remoteRecipe_joined (q : Request) (l : TLink) (m r : Nat) : (joined q l).remoteRecipe 0 m r = some recipe0 := by
  show ([(7, recipe0)][Config.remoteWord m r 0 % 1]?).map (·.2) = _
  rw [Nat.mod_one]; rfl

def joined9 : State := joined0.tickTo 9

/-- The stack of page 0 refuses, or a sector of the sum block is poisoned. -/
def hot9 : State := { joined9 with mem := { joined9.mem with stks := [(4, { Stack.reset with refuse := true })] } }
def poisoned9 : State := { joined9 with mem := { joined9.mem with poison := [frameKey 4 7 * 2 ^ 15 + 64] } }

theorem wit_FramesReachMemory :
    (∀ u ∈ [joined9, hot9], Lands u 1 writeFrame) ∧
    (pagesOf writeFrame.addr.toNat 64).findSome? joined9.stackRefuses = none ∧
    (pagesOf writeFrame.addr.toNat 64).findSome? hot9.stackRefuses = some 0x0410#16 := by
  have lands (u : State) (h : u ∈ [joined9, hot9]) : Lands u 1 writeFrame := by
    simp only [List.mem_cons, List.not_mem_nil, or_false] at h
    obtain rfl | rfl := h
    · exact ⟨by decide +kernel, by decide +kernel, (frameCheck_tframe ..).trans (by decide +kernel)⟩
    · exact ⟨by decide +kernel, by decide +kernel, (frameCheck_tframe ..).trans (by decide +kernel)⟩
  exact ⟨lands, by decide +kernel, by decide +kernel⟩
theorem wit_FramesReachMemory_add :
    Lands joined9 2 addFrame ∧ Unperturbed joined9 ∧ joined9.dep.adders.contains (stackNum (joined9.page 0).loc (joined9.page 0).lstack) = false ∧
    (pagesOf 4096 1544).findSome? joined9.stackRefuses = none ∧ joined9.poisonAt 4096 1544 = none ∧
    (Lands poisoned9 2 addFrame ∧ poisoned9.poisonAt 4096 1544 ≠ none ∧ (pagesOf 4096 1544).findSome? poisoned9.stackRefuses = none) ∧
    Lands hot9 2 addFrame ∧ (pagesOf 4096 1544).findSome? hot9.stackRefuses = some 0x0410#16 :=
  ⟨⟨by decide +kernel, by decide +kernel, (frameCheck_tframe ..).trans (by decide +kernel)⟩, by decide +kernel, by decide +kernel, by decide +kernel,
   by decide +kernel,
   ⟨⟨by decide +kernel, by decide +kernel, (frameCheck_tframe ..).trans (by decide +kernel)⟩, by decide +kernel, by decide +kernel⟩,
   ⟨by decide +kernel, by decide +kernel, (frameCheck_tframe ..).trans (by decide +kernel)⟩, by decide +kernel⟩
theorem wit_FramesReachMemory_token :
    Lands joined9 4 (tokenFrame false) ∧ (joined9.entry 0 5).st = .free ∧ joined9.trk.pending.countP (fun p => p.1 == 0) < 512 :=
  ⟨⟨by decide +kernel, by decide +kernel, (frameCheck_tframe ..).trans (by decide +kernel)⟩, by decide +kernel⟩
theorem wit_FramesReachMemory_count :
    let e := entry0 0 0 2 0 .waiting
    let u := ({ joined0 with trk := { Trk.reset with table := [(5, e)] } } : State).tickTo 9
    Lands u 4 (tokenFrame true) ∧ u.entry 0 5 = e ∧ e.desc.serial = bits (le (tokenFrame true).payload 0 8) 63 40 ∧ 1 < e.dept :=
  ⟨⟨by decide +kernel, by decide +kernel, (frameCheck_tframe ..).trans (by decide +kernel)⟩, by decide +kernel⟩
theorem wit_FramesReachMemory_grad : Lands joined9 8 gradFrame ∧ (joined9.adaptOf 0 6).ended = none := by decide +kernel
theorem wit_FramesReachMemory_kvseg :
    Lands joined9 7 (segFrame false) ∧ (segFrame false).payload.length < 32 + 1 * (8 + 32 * 64) ∧
    (let u := (joined (remote .shipping) (link0 .active)).tickTo 9
     Lands u 7 (segFrame true) ∧ (segFrame true).payload.length = 32 + 1 * (8 + 32 * 64) ∧ u.remoteOf 8 3 = some 65535 ∧ (u.req 65535).st = .shipping) :=
  ⟨⟨by decide +kernel, by decide +kernel, (frameCheck_tframe ..).trans (by decide +kernel)⟩, by decide +kernel,
   ⟨by decide +kernel, by decide +kernel, (frameCheck_tframe ..).trans (by decide +kernel)⟩, by decide +kernel⟩

def dropFrame : TFrame := tframe 9 0 (natLe 2 0x0534 ++ [1, 0] ++ natLe 4 5)
def ctlFrame (op : Nat) : TFrame := tframe 6 0 ([BitVec.ofNat 8 op, 0] ++ natLe 2 3 ++ natLe 2 8 ++ natLe 2 0 ++ natLe 4 2 ++ natLe 4 1)
def sent0 (req : Option Nat) : SentFrame := { tag := 5, since := 0, stn := none, req := req, parcel := 0, dest := 8, dparcel := 4 }
/-- The same with the frame belonging to request 65,535. -/
def owing : State := { joined0 with sent := [sent0 (some 65535)] }
/-- A unit of a mailbox with its CRC. -/
def unit0 (src : USource) (ukind box code : Nat) (pay : List Byte) : MUnit :=
  let u : MUnit :=
    { source := src, magic := 0x584D, ver := 1, ukind := BitVec.ofNat 8 ukind, mbox := BitVec.ofNat 8 box, rsv5 := 0, seq := 0,
      code := BitVec.ofNat 16 code, len := BitVec.ofNat 16 pay.length, tag := 6, payload := pay, crc := 0, tlen := 20 + pay.length }
  { u with crc := crc32c (unitHead u) }
def i3cSource : USource := { transport := .i3c, addr := 0, udp := 0, module := 0, parcel := none }
/-- A RELAY of the maintenance mailbox waits for the response of module 8. -/
def relaying : State :=
  { joined0 with mbox := [(16, { Mbox.reset with wait := some (unit0 i3cSource 1 16 3 []), relay := some (relayKey 8 0 6, 0) })] }

theorem wit_FramesAnswer :
    let f := tframe 3 0 (natLe 4 0)
    Lands joined9 3 f ∧ joined9.sentTag 5 = some (sent0 none) ∧ (sent0 none).dest = f.src.toNat ∧ le f.payload 0 2 = 0 := by decide +kernel
theorem wit_FramesAnswer_drop :
    let u := owing.tickTo 26000
    Lands u 9 dropFrame ∧ le dropFrame.payload 2 1 ≠ 0 ∧ le dropFrame.payload 4 4 = 5 ∧ u.sentTag 5 = some (sent0 (some 65535)) ∧
    (u.req 65535).live = true ∧ (u.req 65535).dest = none ∧ 0 + 26000 = u.aon := by decide +kernel
theorem wit_FramesAnswer_reqctl :
    let u := (joined (remote .decode) (link0 .active)).tickTo 9
    (Lands u 6 (ctlFrame 1) ∧ u.remoteOf 8 3 = some 65535 ∧ (remote .decode).live = true ∧ (remote .decode).dest = none) ∧
    (Lands u 6 (ctlFrame 2) ∧ (u.servPort 1).isSome = true ∧ (u.req 65535).remote = some (8, 3) ∧ ((remote .decode).gen.drop 1).take 2 = [5, 6] ∧
       2 ≤ max 1 (u.frameRoom 1)) ∧ Lands u 6 (ctlFrame 3) := by decide +kernel
theorem wit_FramesAnswer_mailbox :
    let u := relaying.tickTo 9
    let u0 := unit0 i3cSource 2 0 0 []
    Lands u 5 (tframe 5 0 [1]) ∧ u0.ukind = 2#8 ∧ NothingWaits { u with mbox := fput u.mbox 16 .reset } ∧
    [0, 16].find? (fun m => (u.box m).relay.any fun y => y.1 == relayKey 8 u0.seq.toNat u0.tag.toNat) = some 16 ∧
    (u.box 16).wait = some (unit0 i3cSource 1 16 3 []) ∧ (u.box 16).sync = [] ∧ (u.box 16).held = [] := by decide +kernel

theorem wit_OtherFramesChangeNothing :
    let u := joined9
    (let f := tframe 1 1 (List.replicate 64 0)
     Arrives u f 17 ∧ f.dest.toNat % 4096 = u.own ∧ u.frameCheck 1 f = some 0x01A2#16) ∧
    (let f := tframe 1 0 (List.replicate 64 0) 7
     Arrives u f 17 ∧ f.dest.toNat % 4096 ≠ u.own ∧ f.hops.toNat % 4096 = 0) :=
  ⟨⟨by decide +kernel, by decide +kernel, (frameCheck_tframe ..).trans (by decide +kernel)⟩, by decide +kernel⟩

/-- A CLOSURE or REOPEN of the port between the modules 8 and 9. -/
def eventFrame (kind : Nat) : TFrame := tframe kind 0 (natLe 2 8 ++ natLe 2 1 ++ natLe 2 8 ++ [17, 0] ++ natLe 2 9 ++ [17] ++ List.replicate 5 0)
def closed (f : Closure → Closure) : State := { joined0 with trv := { joined0.trv with cl := f joined0.trv.cl } }

theorem wit_ClosuresAct :
    (let u := joined0.tickTo 9
     Arrives u (eventFrame 0x21) 17 ∧ 8 ≠ u.own ∧ u.trv.cl.seen = [] ∧ u.frameCheck 0x21 (eventFrame 0x21) = none) ∧
    (let u := (closed fun c => { c with failed := [(8, 17), (9, 17)], reopened := [(9, 17, 9)], seen := [(8, 0)] }).tickTo 9
     Arrives u (eventFrame 0x22) 17 ∧ u.frameCheck 0x22 (eventFrame 0x22) = none ∧ 0 < serialDist 16 (le (eventFrame 0x22).payload 2 2) 0 ∧
       u.trv.cl.reopened.any (fun z => (z.1, z.2.1) == (9, 17)) = true) ∧
    (((closed fun c => { c with event := some 0 }).tickTo 650).trv.cl.event = some 0 ∧ ((closed id).tickTo 650).aon = 650) ∧
    (((closed fun c => { c with running := true }).tickTo 9).trv.cl.running = true ∧ joined0.trv.survey = some survey0) := by decide +kernel

/-- The CRC of a flit with these header fields. -/
def flitCrc (ty fseq ack : Nat) (nak : Bool) (dvc cvc cr first : Nat) (pay : List Byte) : BitVec 32 :=
  crc32c (natLe 6 (flitHead ty fseq ack nak dvc cvc cr first) ++ pay)

/-- A frame that has left for module 8. -/
def out0 : EFrame := { what := .rfm 0, cls := 0, set := 0, dest := 8, len := 100, kind := 1, parcel := some 0, hops := 0, ingress := 18 }
/-- Link 17 with frames on their way whose flits are 0 to 4 and 5 to 6. -/
def flying (r : Bool) : State :=
  joined (asked .decode) { link0 .active with
    expect := 4095, send := 7, retrain := r
    unacked := [{ first := 0, flits := 5, pseq := 0, fr := out0 }, { first := 5, flits := 2, pseq := 1, fr := out0 }] }

theorem wit_TraverseFlitsAreAnswered :
    (let s := flying false
     s.linkUsed 17 = true ∧ s.panel.fault.getLsbD 17 = false ∧ (s.tlink 17).st.carries = true ∧ (s.tlink 17).retrain = false ∧ (s.tlink 17).expect = (4095#12).toNat ∧
       s.portOf 17 = some 17 ∧ (s.tport 17).queue = [] ∧ (s.tickTo 9).linkUsed 17 = true ∧
       ((s.tlink 17).ackedTo 4).after 4 = 2 ∧ ((s.tlink 17).ackedTo 6).after 6 = 0 ∧ ((s.tlink 17).ackedTo 4).replayed < 8) ∧
    (flitHeadLegal 1 1 3 5 0 = true ∧ flitHeadLegal 0 0 0 0 0x3FF = true ∧ flitHeadLegal 3 0 0 0 0 = false) ∧
    flitCrc 1 4095 6 false 1 3 5 0 [8] ≠ flitCrc 1 4095 6 false 1 3 5 0 [9] ∧
    ((flying true).tlink 17).retrain = true ∧
    { flying true with panel := { Panel.reset with fault := 0x20000 } }.panel.fault.getLsbD 17 = true := by decide +kernel

def helloFrame (gen : Nat) : TFrame :=
  tframe 0x20 0 (natLe 2 8 ++ [17, 0x11] ++ natLe 4 1 ++ natLe 2 gen ++ natLe 6 0 ++ natLe 8 5 ++ natLe 8 0)

theorem wit_LinksChangeState :
    (((joined (asked .decode) (link0 .failed)).tickTo 130000).tlink 17 = link0 .failed ∧
      ((joined (asked .decode) (link0 .training)).tickTo 650000).tlink 17 = link0 .training ∧
      ((joined (asked .decode) (link0 .quarantined)).tickTo 13000).tlink 17 = link0 .quarantined ∧
      ((joined (asked .decode) (link0 .probation)).tickTo 1300000).tlink 17 = link0 .probation) ∧
    (let u := (joined (asked .decode) (link0 .hello)).tickTo 9
     u.linkUsed 17 = true ∧ u.panel.fault.getLsbD 17 = false ∧ u.sec.recover = none ∧ u.inRecovery = false ∧ (u.tlink 17).st = .hello ∧ ecrcOk 0x20 (helloFrame 2) = true ∧
       headLegal 0x20 (helloFrame 2) = true ∧ bodyLegal 0x20 (helloFrame 2) = true ∧ u.helloCheck 17 (helloFrame 2).payload = none ∧
       u.portOf 17 = some 17 ∧ ecrcOk 0x20 (helloFrame 3) = true ∧ u.helloCheck 17 (helloFrame 3).payload = some 0x0537#16) := by decide +kernel

/-- A frame's own TYPE is a reserved one, and the frame fails check 2 (R374, R375). -/
theorem test_traverse_type :
    (∀ y ∈ [0x01#8, 0x0A#8, 0x20#8, 0x22#8], (Instr.write { writeFrame with typ := some y } 0).wf = false) ∧
    (∀ y ∈ [0x00#8, 0x0B#8, 0x1F#8, 0x23#8, 0xFF#8], (Instr.write { writeFrame with typ := some y } 0).wf = true ∧
      headLegal y.toNat writeFrame = false ∧ bodyLegal y.toNat writeFrame = false) := by decide +kernel

/-- REQ_END goes to the module of a task's successor entry, once, and not where the request is a remote entry (R397). -/
def spread (q : Request) : State :=
  let x := 3 * 2 ^ 30 + 8 * 2 ^ 3
  let d := { Desc.empty with owner := 65535, nsucc := 2, succs := [x, x] }
  { joined q (link0 .active) with trk := { Trk.reset with table := [(5, { TrkEntry.free with st := .waiting, desc := d })] } }
theorem test_req_end_modules : (spread (asked .decode)).endTargets 65535 = [(8, 0)] ∧ (spread (remote .decode)).endTargets 65535 = [] := by
  decide +kernel

/-- Requesters that have had their maximum of the window wait for the next (R407). -/
theorem test_idle_slots :
    let a : Arb := { Arb.reset with slot := 9, used := [(0, 4)], sh := [(0, 4), (0, 256)] }
    let sh := [(0, 4), (0, 256)]
    a.pick sh [0] = none ∧ (a.turned sh [0]).pick sh [0] = some 0 ∧ a.turned sh [0, 1] = a ∧ a.pick sh [0, 1] = some 1 := by decide +kernel

/-! ### Mailboxes -/

def mgmtSource : USource := { transport := .mgmt, addr := 77, udp := 9, module := 0, parcel := none }
/-- A unit of a kind to a mailbox from a source that may use it. -/
def cmd (m op : Nat) (pay : List Byte) (ukind : Nat := 1) : MUnit := unit0 (if m = 16 then i3cSource else mgmtSource) ukind m op pay
theorem unitWhole_cmd (m op : Nat) (pay : List Byte) (k : Nat) : unitWhole (cmd m op pay k) = true := by
  simp [unitWhole, cmd, unit0, unitHead]
theorem reaches_cmd (s : State) (m op : Nat) (pay : List Byte) (k : Nat)
    (h : let c := cmd m op pay k
      unitBox c = m ∧ m ≤ 16 ∧ s.boxWorks m = true ∧ s.permitted m c.source = true ∧ unitLegal c = true) : Reaches s m (cmd m op pay k) :=
  ⟨h.1, h.2.1, h.2.2.1, unitWhole_cmd .., h.2.2.2⟩
/-- A command made here runs when the conditions other than its CRC hold. -/
theorem mayRun_cmd (s : State) (m op : Nat) (pay : List Byte)
    (h : let c := cmd m op pay
      (unitBox c = m ∧ m ≤ 16 ∧ s.boxWorks m = true ∧ s.permitted m c.source = true ∧ unitLegal c = true) ∧
      (c.ukind = 1#8 ∧ c.code.toNat = op ∧ (op = 1 ∨ c.seq = (s.box m).next) ∧ NothingWaits s) ∧ s.cmdCheck m op c.payload = none) :
    MayRun s m (cmd m op pay) op :=
  ⟨⟨reaches_cmd s m op pay 1 h.1, h.2.1⟩, h.2.2⟩

/-- The graph 3 of a recipe with one set of codebooks runs on its own. -/
def recipe1 : Recipe :=
  { recipe0 with ncbset := 1, graphs := graphs0 ++ [{ graph := 3, gkind := 2, ntask := 1, template := 2048, argbase := 0, narg := 0 }] }
def pageW (cls : PClass) (f : Nat) : PageEntry :=
  { PageEntry.none with valid := true, cls := cls, st := .resident, loc := 2, lstack := 15, lframe := f, owner := 0, hstack := 15, hframe := f,
                        share := if cls = .wShared then 0x8001 else 0 }
/-- The header of recipe 9 with one graph, from address 4,096. -/
def header9 : List Byte :=
  natLe 4 0x58524350 ++ natLe 4 1 ++ natLe 4 9 ++ natLe 4 100 ++ natLe 2 1 ++ [1, 4, 1] ++ List.replicate 51 0 ++ natLe 4 1 ++ natLe 4 0
    ++ natLe 8 8192 ++ List.replicate 40 0 ++ (List.range 7).flatMap (fun _ => (List.range 15).flatMap fun k => natLe 2 (k + 1))
/-- Bytes of page 0 from an address. -/
def cellsAt (a : Nat) (bs : List Byte) : List Host.Cell :=
  bs.zipIdx.filterMap fun x => if x.1 = 0 then none else some (physKey 4 7 a + x.2, x.1)
/-- A grammar of one state. -/
def grammar0 : List Byte := [1] ++ List.replicate 639 0
/-- Module 9 with Parcel 0 of four Stations, whose page 0 is mapped in Tier H, page 1 its own and page 2 shared in Tier W. -/
def boxed : State :=
  let s := serving (asked .free)
  { s with
    parcels := [(0, { Parcel.absent with
      st := .active, stations := 0xF, udp := 7000, quotaN := [9, 9, 9, 9], quotaH := 40960, quotaW := 9, mgmt := [(0, 0)], peers := [(8, 4)]
      recipes := [(7, recipe1)] })]
    mem := { s.mem with
      pages := [(0, page0), (1, pageW .wPrivate 8), (2, pageW .wShared 9)], lost := [2]
      cells := s.mem.cells ++ cellsAt 4096 header9 ++ cellsAt 8192 ([9, 0, 0, 0] ++ natLe 4 1 ++ natLe 8 2048) }
    mbox := [(0, { Mbox.reset with staging := putBytes [] 0 grammar0 })] }
def boxed9 : State := boxed.tickTo 9

theorem wit_MailboxesAnswer :
    MayRun boxed9 16 (cmd 16 1 []) 1 ∧ MayRun boxed9 0 (cmd 0 2 [5]) 2 ∧ MayRun boxed9 0 (cmd 0 3 (List.replicate 24 0)) 3 ∧
    MayRun boxed9 0 (cmd 0 0x10 (natLe 4 4194303 ++ [7])) 0x10 ∧ Tab.wf 0 (boxed9.box 0).staging = true ∧
    MayRun boxed9 0 (cmd 0 0x11 (natLe 4 4193280 ++ natLe 2 1024)) 0x11 ∧ MayRun boxed9 16 (cmd 16 0x70 [2, 0, 63, 255, 9, 0]) 0x70 ∧
    MayRun boxed9 0 (cmd 0 0x71 ([3] ++ List.replicate 33 0)) 0x71 ∧
    Reaches boxed9 16 (cmd 16 0 [] 4) ∧ (cmd 16 0 [] 4).ukind = 4#8 :=
  ⟨mayRun_cmd _ _ _ _ (by decide +kernel), mayRun_cmd _ _ _ _ (by decide +kernel), mayRun_cmd _ _ _ _ (by decide +kernel),
   mayRun_cmd _ _ _ _ (by decide +kernel), by decide +kernel, mayRun_cmd _ _ _ _ (by decide +kernel), mayRun_cmd _ _ _ _ (by decide +kernel),
   mayRun_cmd _ _ _ _ (by decide +kernel), reaches_cmd _ _ _ _ _ (by decide +kernel), by decide +kernel⟩

/-- A RELAY inside a unit that Parcel 4 of module 8 relays. -/
def relayInside : MUnit := unit0 { transport := .traverse, addr := 0, udp := 0, module := 8, parcel := some 4 } 1 0 3 (List.replicate 24 0)
theorem wit_MailboxesAnswer_relayed : MayRun boxed9 0 relayInside 3 ∧ relayInside.source.transport = .traverse :=
  ⟨⟨⟨⟨by decide +kernel, by decide +kernel, by decide +kernel, by simp [unitWhole, relayInside, unit0, unitHead], by decide +kernel, by decide +kernel⟩,
     by decide +kernel⟩, by decide +kernel⟩, rfl⟩

/-- A mailbox that has answered its command 0. -/
def cached : State := { boxed with mbox := [(0, { Mbox.reset with next := 1, cache := [{ seq := 0, code := 0, tag := 6, pay := [5] }] })] }

theorem wit_MailboxesAnswer_refused :
    (let u := ({ boxed with parcels := [(0, { boxed.parcel 0 with st := .resetting })] } : State).tickTo 9
     OnTurn u 0 (cmd 0 2 [5]) 2 ∧ u.cmdCheck 0 2 [5] = some 0x0231#16) ∧
    (let u := cached.tickTo 9
     Reaches u 0 (cmd 0 2 [5]) ∧ (cmd 0 2 [5]).code = 2#16 ∧ NothingWaits u ∧ (cmd 0 2 [5]).source.transport = .mgmt ∧
       serialDist 16 (cmd 0 2 [5]).seq.toNat (u.box 0).next.toNat = -1 ∧
       (u.box 0).cache.find? (fun r => r.seq == (cmd 0 2 [5]).seq) = some { seq := 0, code := 0, tag := 6, pay := [5] }) :=
  ⟨⟨⟨reaches_cmd _ _ _ _ _ (by decide +kernel), by decide +kernel⟩, by decide +kernel⟩,
   reaches_cmd _ _ _ _ _ (by decide +kernel), by decide +kernel⟩

theorem wit_MailboxesShowState :
    MayRun boxed9 0 (cmd 0 0x20 [0]) 0x20 ∧ MayRun boxed9 16 (cmd 16 0x81 [255, 31, 8]) 0x81 ∧
    (MayRun boxed9 0 (cmd 0 0x42 (natLe 4 2)) 0x42 ∧ runHigh 2 1 = false ∧ boxed9.mayRead 0 2 = true) ∧
    MayRun boxed9 16 (cmd 16 0xB0 (natLe 4 0x200 ++ natLe 12 0)) 0xB0 ∧
    MayRun boxed9 16 (cmd 16 0xB0 (natLe 4 0x1F0 ++ natLe 4 1 ++ natLe 8 (2 ^ 44 - 1))) 0xB0 :=
  ⟨mayRun_cmd _ _ _ _ (by decide +kernel), mayRun_cmd _ _ _ _ (by decide +kernel), ⟨mayRun_cmd _ _ _ _ (by decide +kernel), by decide +kernel⟩,
   mayRun_cmd _ _ _ _ (by decide +kernel), mayRun_cmd _ _ _ _ (by decide +kernel)⟩
/-- Which word of a REG_READ names a register is free; a word that names MEM_STACK_STATUS meets the conditions. -/
theorem wit_MailboxesShowState_register (b : BitVec 8) (h : Config.regOf b 0#16 0#32 = some .stnMemStackStatus) :
    let p := b :: List.replicate 7 0
    MayRun boxed9 16 (cmd 16 0x80 p) 0x80 ∧ regNamed p = some .stnMemStackStatus ∧
      ((begun boxed9 16 (cmd 16 0x80 p)).regValue .stnMemStackStatus 0).isSome = true := by
  have e : regNamed (b :: List.replicate 7 0) = some .stnMemStackStatus := by
    rw [← h]; simp [regNamed, le, leNat]
  have v : ∀ s : State, (s.regValue .stnMemStackStatus 0).isSome = true := fun s => rfl
  refine ⟨mayRun_cmd _ _ _ _ ⟨⟨rfl, Nat.le_refl 16, rfl, rfl, by simp [unitLegal, cmd, unit0]⟩, ⟨rfl, rfl, .inr rfl, by decide +kernel⟩, ?_⟩, e, v _⟩
  have a : boxed9.argsOk 0x80 (b :: List.replicate 7 0) = true := by
    simp only [State.argsOk, e]; exact v boxed9
  have q : ∀ p, boxed9.noPrivilege 16 0x80 p = false := fun _ => rfl
  show boxed9.cmdCheck 16 0x80 (b :: List.replicate 7 0) = none
  simp only [State.cmdCheck, q, a]; rfl

theorem wit_ParcelsAreCommanded :
    (MayRun boxed9 0 (cmd 0 0x21 [0]) 0x21 ∧ (boxed9.parcel 0).st = .active) ∧
    (MayRun boxed9 0 (cmd 0 0x31 (natLe 4 7)) 0x31 ∧ (boxed9.recipe 0 7).isSome = true ∧
      boxed9.reqs.any (fun x => x.2.live && x.2.parcel == 0 && x.2.blk.recipe == 7) = false) ∧
    MayRun boxed9 0 (cmd 0 0x50 ([63, 0] ++ natLe 4 262144 ++ natLe 4 0)) 0x50 ∧
    (MayRun boxed9 0 (cmd 0 0x51 ([15, 0] ++ natLe 4 0 ++ natLe 4 640)) 0x51 ∧ gramOk (boxed9.stageGet 0 0 640) = true) ∧
    (MayRun boxed9 0 (cmd 0 0x52 (natLe 6 0)) 0x52 ∧ (boxed9.parcel 0).recipes.filter (fun r => decide (0 < r.2.ncbset)) ≠ [] ∧
      (boxed9.parcel 0).newest 0 = none ∧ zeros (boxed9.stageGet 0 0 4104) 4097 7 = true) ∧
    MayRun boxed9 0 (cmd 0 0x53 ([63] ++ natLe 23 0)) 0x53 :=
  ⟨⟨mayRun_cmd _ _ _ _ (by decide +kernel), by decide +kernel⟩, ⟨mayRun_cmd _ _ _ _ (by decide +kernel), by decide +kernel⟩,
   mayRun_cmd _ _ _ _ (by decide +kernel), ⟨mayRun_cmd _ _ _ _ (by decide +kernel), by decide +kernel⟩,
   ⟨mayRun_cmd _ _ _ _ (by decide +kernel), by decide +kernel⟩, mayRun_cmd _ _ _ _ (by decide +kernel)⟩

/-- A window of one page at the end of the window region onto Parcel 4 of module 8. -/
def windowCmd : List Byte := [0, 3] ++ natLe 4 (0xF * 2 ^ 19 - 1) ++ natLe 4 1 ++ natLe 2 8 ++ natLe 4 4 ++ natLe 8 0

theorem wit_ParcelsAreCommanded_window :
    MayRun boxed9 0 (cmd 0 0x53 windowCmd) 0x53 ∧ le windowCmd 6 4 ≠ 0 ∧ 0xE * 2 ^ 19 ≤ le windowCmd 2 4 ∧ le windowCmd 2 4 + le windowCmd 6 4 = 0xF * 2 ^ 19 ∧
    (boxed9.parcel 0).windows = [] ∧ (boxed9.parcel 0).peers.contains (le windowCmd 10 2, le windowCmd 12 1) = true :=
  ⟨mayRun_cmd _ _ _ _ (by decide +kernel), by decide +kernel⟩

/-- Parcel 0 with a mask, and with the quota of Tier N that it has or none. A mask takes a page of the Facet where Grenlor puts it. -/
def masked (quota : List Nat) : Parcel := { boxed9.parcel 0 with quotaN := quota, masks := [(63, [1])] }
theorem masked_pages (quota : List Nat) (k : Nat) : (masked quota).objectPages 0 k = if Config.objectPlace 0 63 % 4 = k then 1 else 0 := by
  have g : (masked quota).grammars = [] := (show (boxed9.parcel 0).grammars = [] by decide +kernel)
  have m : (masked quota).masks = [(63, [1])] := rfl
  by_cases h : Config.objectPlace 0 63 % 4 = k <;> simp [Parcel.objectPages, g, m, h, ceilDiv]
theorem wit_ParcelsAreCommanded_quota :
    (∀ k < 4, (boxed9.modParcel 0 fun _ => masked [9, 9, 9, 9]).usage 0 0 k (2 ^ 23) ≤ (boxed9.parcel 0).quota 0 k) ∧
    (let poor : State := boxed9.modParcel 0 fun q => { q with quotaN := [] }
     ∃ k < 4, (poor.parcel 0).quota 0 k < (poor.modParcel 0 fun _ => masked []).usage 0 0 k (2 ^ 23) ∧
       poor.usage 0 0 k (2 ^ 23) < (poor.modParcel 0 fun _ => masked []).usage 0 0 k (2 ^ 23)) := by
  have bare (s : State) (k : Nat) (hk : k < 4) (q : Parcel)
      (h : ∀ k < 4, (s.mem.pages.map fun x => if x.1 = 2 ^ 23 then 0 else x.2.counts 0 0 k).sum + s.moveCounts 0 0 k = 0)
      (h' : s.parcel 0 = q) : s.usage 0 0 k (2 ^ 23) = q.objectPages 0 k := by
    simp only [State.usage, h k hk, h', if_true, Nat.zero_add]
  constructor
  · intro k hk
    rw [bare _ k hk (masked [9, 9, 9, 9]) (by decide +kernel) (by decide +kernel), masked_pages]
    have : ∀ k < 4, 1 ≤ (boxed9.parcel 0).quota 0 k := by decide +kernel
    have := this k hk
    split <;> omega
  · have hk := Nat.mod_lt (Config.objectPlace 0 63) (show 4 > 0 by decide)
    refine ⟨Config.objectPlace 0 63 % 4, hk, ?_⟩
    rw [bare (State.modParcel _ _ _) _ hk (masked []) (by decide +kernel) (by decide +kernel), masked_pages, if_pos rfl,
      bare (State.modParcel boxed9 0 _) _ hk { boxed9.parcel 0 with quotaN := [] } (by decide +kernel) (by decide +kernel)]
    have q : (((boxed9.modParcel 0 fun q => { q with quotaN := [] }).parcel 0).quotaN, (boxed9.parcel 0).masks, (boxed9.parcel 0).grammars)
        = ([], [], []) := by decide +kernel
    simp only [Prod.mk.injEq] at q
    simp [Parcel.quota, Parcel.objectPages, q.1, q.2.1, q.2.2, ceilDiv]

theorem wit_ParcelsAreCommanded_bind :
    MayRun boxed9 0 (cmd 0 0x30 (natLe 4 9 ++ natLe 8 4096)) 0x30 ∧ 4 = stationCount (boxed9.parcel 0).stations ∧
    40960 ≤ (boxed9.parcel 0).quotaH ∧ (boxed9.parcel 0).recipes.length < 16 ∧ (boxed9.recipeAt 0 9 4096).toOption.isSome = true :=
  ⟨mayRun_cmd _ _ _ _ (by decide +kernel), by decide +kernel⟩

theorem wit_ParcelsAreCommanded_run :
    let c := cmd 0 0x60 (natLe 4 7 ++ natLe 2 3 ++ natLe 18 0)
    let g : GraphEnt := { graph := 3, gkind := 2, ntask := 1, template := 2048, argbase := 0, narg := 0 }
    MayRun boxed9 0 c 0x60 ∧ (boxed9.recipe 0 7 = some recipe1 ∧ recipe1.graphs.find? (fun g => g.graph == 3 && g.gkind == 2) = some g ∧
      (boxed9.template g).any (fun d => d.kind == 4) = false ∧ boxed9.argBusy 0 7 (boxed9.serialFor 0 none) g = false) ∧
      ((begun boxed9 0 c).instantiate 0 7 g 0 0 none ((c.payload.drop 8).take 16)).isSome = true := by
  refine ⟨mayRun_cmd _ _ _ _ (by decide +kernel), by decide +kernel, ?_⟩
  rw [State.instantiate, if_neg (by decide +kernel)]; rfl

theorem mapPages_one {s r : State} {p tier stack g f : Nat} (e : s.pickFrame (stackNum tier stack) = (r, some f)) :
    s.mapPages p tier stack [g] = some (r.setPage g (newPage p tier stack f)) := by
  simp only [State.mapPages, e]

theorem wit_MemoryIsCommanded :
    let alloc := cmd 0 0x40 (natLe 4 (0xE * 2 ^ 19 - 1) ++ natLe 4 1 ++ [1, 15])
    (MayRun boxed9 0 alloc 0x40 ∧ runHigh (0xE * 2 ^ 19 - 1) 1 = false ∧ runPages (0xE * 2 ^ 19 - 1) 1 = [0xE * 2 ^ 19 - 1] ∧
      (∀ x ∈ boxed9.mem.pages, x.1 ≠ 0xE * 2 ^ 19 - 1) ∧ boxed9.usage 0 1 15 (2 ^ 23) + 1 ≤ (boxed9.parcel 0).quota 1 15) ∧
    (∃ w, (begun boxed9 0 alloc).mapPages 0 1 15 [0xE * 2 ^ 19 - 1] = some w) ∧
    (MayRun boxed9 0 (cmd 0 0x41 (natLe 4 0 ++ natLe 4 2)) 0x41 ∧ runHigh 0 2 = false ∧ boxed9.genBlocked 0 = false ∧
      ∀ g ∈ runPages 0 2, (boxed9.page g).valid = true ∧ (boxed9.page g).owner = 0 ∧ (boxed9.page g).cls ≠ .wShared ∧
        (boxed9.page g).st ≠ .unmapPending) :=
  ⟨⟨mayRun_cmd _ _ _ _ (by decide +kernel), by decide +kernel⟩, by
    obtain ⟨r, f, e⟩ := pickFrame_some (begun boxed9 0 (cmd 0 0x40 (natLe 4 (0xE * 2 ^ 19 - 1) ++ natLe 4 1 ++ [1, 15]))) 19 32767
      (by decide +kernel) (by decide +kernel)
    exact ⟨_, mapPages_one e⟩,
   ⟨mayRun_cmd _ _ _ _ (by decide +kernel), by decide +kernel⟩⟩

theorem wit_MemoryIsCommanded_data :
    (MayRun boxed9 0 (cmd 0 0x43 (natLe 8 (2 ^ 21 - 64) ++ natLe 4 0 ++ natLe 4 64)) 0x43 ∧
      ∀ g ∈ pagesOf (2 ^ 21 - 64) 64, g / 2 ^ 19 < 0xE ∧ boxed9.pageCheck true 0 g = none ∧ boxed9.stackRefuses g = none ∧
        (boxed9.page g).st ≠ .moving) ∧
    (MayRun boxed9 0 (cmd 0 0x44 (natLe 8 (2 ^ 21 - 64) ++ natLe 2 1024)) 0x44 ∧ pagesOf (2 ^ 21 - 64) 1024 = [0, 1] ∧
      (∀ g ∈ pagesOf (2 ^ 21 - 64) 1024, g / 2 ^ 19 < 0xE ∧ boxed9.mayRead 0 g = true ∧ boxed9.stackRefuses g = none ∧
        (boxed9.page g).bad = false) ∧ boxed9.poisonAt (2 ^ 21 - 64) 1024 = none) :=
  ⟨⟨mayRun_cmd _ _ _ _ (by decide +kernel), by decide +kernel⟩, ⟨mayRun_cmd _ _ _ _ (by decide +kernel), by decide +kernel⟩⟩

/-- A command about the one page `g`. -/
def share (op w stack g : Nat) : MUnit := cmd 16 op (natLe 1 w ++ natLe 3 stack ++ natLe 4 g ++ natLe 4 1)

theorem wit_MemoryIsCommanded_shared :
    let p := share 0xA0 0 14 1
    (MayRun boxed9 16 p 0xA0 ∧ runHigh 1 1 = false ∧
      (∀ g ∈ runPages 1 1, (boxed9.page g).valid = true ∧ (boxed9.page g).owner = 0 ∧ (boxed9.page g).cls = .wPrivate ∧
        (boxed9.page g).st = .resident ∧ boxed9.mem.wjobs.any (fun j => j.rpage == g && j.why == .mirror) = false ∧ (boxed9.page g).hstack ≠ 14) ∧
      boxed9.usage 0 2 0 (2 ^ 23) + 1 ≤ (boxed9.parcel 0).quotaW ∧ (boxed9.stack 34).status.getLsbD 4 = true) ∧
    (∃ w, (begun boxed9 16 p).publishAll 14 (runPages 1 1) = some w) ∧
    (MayRun boxed9 16 (share 0xA1 0xFF 0 2) 0xA1 ∧ boxed9.allShared 2 1 = true) ∧
    (MayRun boxed9 16 (share 0xA2 0x81 0 2) 0xA2 ∧ ∀ p < 16, boxed9.genBlocked p = false) :=
  ⟨⟨mayRun_cmd _ _ _ _ (by decide +kernel), by decide +kernel⟩, by
    obtain ⟨r, f, e⟩ := pickFrame_some (begun boxed9 16 (share 0xA0 0 14 1)) 34 98303 (by decide +kernel) (by decide +kernel)
    exact ⟨_, by simp [runPages, State.publishAll, State.publish, e]; rfl⟩,
   ⟨mayRun_cmd _ _ _ _ (by decide +kernel), by decide +kernel⟩, ⟨mayRun_cmd _ _ _ _ (by decide +kernel), by decide +kernel⟩⟩

theorem wit_MemoryIsCommanded_reload :
    let c := cmd 16 0xA3 (natLe 4 2 ++ natLe 4 (2 ^ 25 - 2 ^ 21))
    (MayRun boxed9 16 c 0xA3 ∧ runHigh 2 1 = false ∧ (boxed9.page 2).valid = true ∧ (boxed9.page 2).cls = .wShared ∧
      boxed9.mem.lost.contains 2 = true ∧ (boxed9.page 2).st ≠ .restoring ∧ (boxed9.page 2).hstack = 15 ∧
      (boxed9.stack 35).status.getLsbD 4 = true) ∧
    ∃ w f, (begun boxed9 16 c).pickFrame 35 = (w, some f) :=
  ⟨⟨mayRun_cmd _ _ _ _ (by decide +kernel), by decide +kernel⟩, pickFrame_some _ _ 98303 (by decide +kernel) (by decide +kernel)⟩

/-! The signatures of plans, images and unlocks are free, so the conditions on them stay conditions here. -/

/-- An empty Base Plan of GEN 2, and a firmware image of 64 bytes, each without its signatures. -/
def plan0 : List Byte := natLe 4 0x58504C4E ++ [0, 1, 0, 0] ++ natLe 4 0 ++ natLe 4 2
def image1 : List Byte := natLe 4 0x5846574D ++ [1, 0, 0, 0] ++ natLe 4 64
def staged (bs : List Byte) (mode : Nat) : State :=
  { boxed with
    mbox := [(16, { Mbox.reset with staging := putBytes [] 0 bs })]
    plan := { boxed.plan with mode := mode }, sec := { boxed.sec with challenge := some (5, 0) } }

/-- An empty Base Plan passes check 8. -/
theorem configOk_empty (g : Nat) (bs : List Byte) :
    configOk { gen := g, baseGen := 0, entries := [], bytes := bs } none 0 = true := by
  have p : ∀ i j k, paramUnder { gen := g, baseGen := 0, entries := [], bytes := bs } none i j k = none := fun _ _ _ => by
    simp [paramUnder, findEntry]
  have s : ∀ j, stationsUnder { gen := g, baseGen := 0, entries := [], bytes := bs } none j = none := fun _ => by
    simp [stationsUnder, p]
  have d : declared { gen := g, baseGen := 0, entries := [], bytes := bs } none = [] := by simp [declared, s]
  have n : ∀ i j k, num4 { gen := g, baseGen := 0, entries := [], bytes := bs } none i j k = 0 := fun _ _ _ => by simp [num4, p]
  simp only [configOk, sharesOk, shareSum, stationsOk, quotasOk, d, n, s, List.map_nil]
  decide +kernel

theorem wit_PlansAndKeysAreCommanded_plan :
    let u := (staged plan0 1).tickTo 9
    let bs := u.stageGet 16 0 3124
    let x := signed 64 bs
    Config.ecdsaOk Config.factoryEcdsaKey x.1 x.2.1 = true → Config.hssOk Config.factoryHssKey x.1 x.2.2 = true →
    MayRun u 16 (cmd 16 0x90 (natLe 8 0 ++ natLe 4 3124)) 0x90 ∧ u.nv = true ∧ u.wrapCheck 0 bs = none ∧
      u.planCheck 0 bs = .ok { gen := 2, baseGen := 0, entries := [], bytes := bs } ∧ u.sec.flash = [] := by
  intro u bs x h1 h2
  have n : bodyLen bs = 0 := by decide +kernel
  have k : le bs 6 1 = 0 := by decide +kernel
  have f : wrapFormat 0 bs = true := by decide +kernel
  refine ⟨mayRun_cmd _ _ _ _ (by decide +kernel), by decide +kernel, ?_, ?_, by decide +kernel⟩
  · have h1' : Config.ecdsaOk factoryKeys.1 (signed 64 bs).1 (signed 64 bs).2.1 = true := h1
    have h2' : Config.hssOk factoryKeys.2 (signed 64 bs).1 (signed 64 bs).2.2 = true := h2
    simp only [State.wrapCheck, f, k, n]; simp [h1', h2']
  · have g : planGen bs = 2 := by decide +kernel
    have b : planBase bs = 0 := by decide +kernel
    have e : entriesOf (wrapBody bs) (bodyLen bs / 8 + 1) = some [] := by decide +kernel
    have q : configOk { gen := 2, baseGen := 0, entries := [], bytes := bs } none u.transit = true := configOk_empty 2 bs
    have o : ¬ (2 ≤ u.plan.force.gen) := by decide +kernel
    simp only [State.planCheck, g, b, e, if_true, decide_eq_true_eq]
    rw [if_neg o]; simp [q, rising]
theorem wit_PlansAndKeysAreCommanded_image :
    let u := (staged image1 1).tickTo 9
    let bs := u.stageGet 16 0 3188
    let x := signed 128 bs
    Config.ecdsaOk Config.firmwareEcdsaKey x.1 x.2.1 = true → Config.hssOk Config.firmwareHssKey x.1 x.2.2 = true →
    MayRun u 16 (cmd 16 0xC0 (natLe 4 0 ++ natLe 4 3188)) 0xC0 ∧ u.nv = true ∧ le bs 0 4 ≠ 0x584B4559 ∧ imageCheck u.sec.svn bs = none ∧
      u.sec.flash = [] := by
  intro u bs x h1 h2
  have n : le bs 8 4 = 64 := by decide +kernel
  refine ⟨mayRun_cmd _ _ _ _ (by decide +kernel), by decide +kernel, by decide +kernel, ?_, by decide +kernel⟩
  have h1' : Config.ecdsaOk Config.firmwareEcdsaKey (signed (64 + 64) bs).1 (signed (64 + 64) bs).2.1 = true := h1
  have h2' : Config.hssOk Config.firmwareHssKey (signed (64 + 64) bs).1 (signed (64 + 64) bs).2.2 = true := h2
  simp only [imageCheck, n]
  rw [if_neg (by decide +kernel), h1', h2', if_neg (by decide), if_neg (by decide), if_neg (by decide +kernel)]
theorem wit_PlansAndKeysAreCommanded :
    let a : Apply := { mode := 3, from' := boxed9.aon, unit := some (cmd 16 0x91 [3]), resets := false, base := boxed9.plan.stored }
    (MayRun boxed9 16 (cmd 16 0x91 [3]) 0x91 ∧ configOk (boxed9.plan.target a).1 (boxed9.plan.target a).2 boxed9.transit = true) ∧
    (MayRun boxed9 0 (cmd 0 0xC1 (List.replicate 48 0)) 0xC1 ∧ boxed9.nv = true ∧ boxed9.sec.bucket ≠ 0 ∧ boxed9.sec.nextQ < 1048576) ∧
    (let u := ({ boxed with sec := { boxed.sec with bucket := 0 } } : State).tickTo 9
     MayRun u 16 (cmd 16 0xC1 (List.replicate 48 0)) 0xC1 ∧ u.nv = true ∧ u.sec.bucket = 0) ∧
    MayRun boxed9 16 (cmd 16 0xC2 (natLe 8 0)) 0xC2 ∧ (MayRun boxed9 16 (cmd 16 0xC2 (natLe 8 1)) 0xC2 ∧ boxed9.plan.mode ≠ 3) ∧
    (let u := (staged [] 3).tickTo 1300000009
     MayRun u 16 (cmd 16 0xC2 (natLe 8 1)) 0xC2 ∧ u.plan.mode = 3 ∧ u.sec.challenge = some (5, 0) ∧ 0 + 1300000000 ≤ u.aon) ∧
    (let u := (staged [] 3).tickTo 9
     MayRun u 16 (cmd 16 0xC2 (natLe 8 1)) 0xC2 ∧ u.plan.mode = 3 ∧ u.sec.challenge = some (5, 0) ∧ u.aon < 0 + 1300000000 ∧ u.nv = true ∧ u.sec.dbg < 16 ∧
       u.sec.fuseBusy = none) :=
  ⟨⟨mayRun_cmd _ _ _ _ (by decide +kernel), by decide +kernel⟩, ⟨mayRun_cmd _ _ _ _ (by decide +kernel), by decide +kernel⟩,
   ⟨mayRun_cmd _ _ _ _ (by decide +kernel), by decide +kernel⟩, mayRun_cmd _ _ _ _ (by decide +kernel),
   ⟨mayRun_cmd _ _ _ _ (by decide +kernel), by decide +kernel⟩, ⟨mayRun_cmd _ _ _ _ (by decide +kernel), by decide +kernel⟩,
   ⟨mayRun_cmd _ _ _ _ (by decide +kernel), by decide +kernel⟩⟩

def held0 : HeldCmd := { u := cmd 0 2 [], at' := 0, gap := true }
def note0 : Note := { ncode := 0x20, vector := 63, overflow := false, count := 255, first := 0, detail := [] }
/-- Mailbox 0 with a held command, a merged event and a queue of one entry; a RELAY of the maintenance mailbox waits alone. -/
def timed : State :=
  { boxed with mbox := [(0, { Mbox.reset with held := [held0], pendN := [note0], ctime := [(63, 65535)], bound := some mgmtSource
                                              queue := [(65535, note0)] })] }
def relayed : State :=
  { boxed with mbox := [(16, { Mbox.reset with wait := some (cmd 16 3 []), relay := some (7, 0) })] }
/-- Parcel 0 is being reset, and all its Stations are idle. -/
def reset0 : PReset := { purge := true, byM := true, units := [], erases := [], forPlan := false }
def resetting0 : State := { boxed with presets := [(0, reset0)], parcels := [(0, { boxed.parcel 0 with st := .resetting })] }

theorem wit_MailboxTimersAct :
    (let b := (timed.tickTo 13000).box 0
     b.held.find? (fun h => h.u.seq == 0 && h.gap && decide (h.at' + 13000 ≤ (timed.tickTo 13000).aon)) = some held0 ∧
       held0.u.source.transport = .mgmt ∧ b.resent + 13000 = (timed.tickTo 13000).aon ∧ b.bound = some mgmtSource ∧ mgmtSource.transport = .mgmt) ∧
    (let u := relayed.tickTo 26000
     (u.box 16).relay = some (7, 0) ∧ (u.box 16).wait = some (cmd 16 3 []) ∧ (cmd 16 3 []).code = 3#16 ∧ 0 + 26000 = u.aon ∧
       NothingWaits { u with mbox := fput u.mbox 16 .reset } ∧ (u.box 16).sync = [] ∧ (u.box 16).held = []) ∧
    (let u := timed.tickTo 65535
     (u.box 0).pendN.find? (fun y => y.vector == 63 && y.ncode == 0x20) = some note0 ∧ note0.first + tget 0 (u.box 0).ctime 63 = u.aon ∧
       (u.box 0).queue.length < 1024) ∧
    (let u := resetting0.tickTo 9
     u.presets.find? (fun x => x.1 == 0) = some (0, reset0) ∧ (u.parcel 0).st = .resetting ∧ u.resetDone 0 reset0 = true ∧
       reset0.forPlan = false ∧ reset0.units = [] ∧ NothingWaits u) ∧
    (boxed9.parcel 0).st ≠ .absent := by decide +kernel

theorem wit_I3cTargetAnswers :
    boxed.pwr.powered = true ∧ boxed9.sec.halted = false ∧ boxed.i3c.pending = [] ∧ boxed.i3c.dynAddr = none ∧
    (0x3B#7).toNat = 0x3A + ({ boxed.pwr with modsel := 1 } : Pwr).modsel.toNat ∧ 1044 ≤ (1044#16).toNat ∧ (1043#16).toNat < 1044 := by
  decide +kernel

/-! ### Boot, recovery and security -/

/-- Power has come, the PLL has locked, and the module is held in reset or has just left it. -/
def starting (resetN : Bool) : State := { on with sec := .reset, pwr := { on.pwr with resetN := resetN } }

theorem wit_TheModuleBoots :
    ((starting true).tickTo 9).held = true ∧ ((starting true).tickTo 9).pwr.resetN = true ∧ (starting false).pwr.resetN = false ∧
    (starting false).held = true ∧ (on.tickTo 9).pwr.powered = true ∧ on.pwr.resetN = true ∧ State.reset.pwr.powered = false ∧
    (4000 ≤ (4000#16).toNat ∧ (5000#16).toNat ≤ 5000) ∧ ((3999#16).toNat < 4000 ∧ 5000 < (5001#16).toNat) := by decide +kernel

/-- A recovery that tries link `k`, or has tried all, with a request that has been repeated `n` times. -/
def rec0 (k n : Nat) : Recov :=
  { link := k, since := 0, reqs := [(7, 4096, n, 0)], got := [(8192, [1])], len := none, tag := 8, next := 8192 }
def recovering (k n : Nat) : State :=
  { on with sec := { Sec.reset with boot := 2, recover := some (rec0 k n) }, trv := { Trv.reset with links := [(3, link0 .active), (8, link0 .hello)] } }
/-- A link-local IMAGE frame. -/
def imgFrame (addr : Nat) (pay : List Byte) : TFrame :=
  let f := { tframe 0x0A addr pay with dest := 0, src := 0, tag := 7 }
  { f with ecrc := crc32c (frameHead 0x0A f ++ pay) }
theorem ecrcOk_imgFrame (addr : Nat) (pay : List Byte) : ecrcOk 0x0A (imgFrame addr pay) = true := by
  simp [ecrcOk, imgFrame, tframe, frameHead]
/-- A module whose image is 5,000 bytes long, with link 17. -/
def imaged : State :=
  { joined0 with sec := { joined0.sec with image := { valid := true, bytes := List.replicate 5000 3, since := none } } }

theorem wit_ImagesAreFetched :
    (let u := (recovering 18 0).tickTo 13000000
     u.sec.recover = some (rec0 18 0) ∧ (rec0 18 0).since + 13000000 = u.aon ∧ (List.range 9).find? (fun j => u.imageLink j) = some 3) ∧
    (∀ n ∈ [2, 3],
     let u := (recovering 3 n).tickTo 13000
     u.sec.recover = some (rec0 3 n) ∧ (rec0 3 n).reqs.find? (fun q => decide (q.2.2.2 + 13000 ≤ u.aon)) = some (7, 4096, n, 0)) ∧
    (let u := (recovering 3 0).tickTo 9
     u.imageLink 3 = true ∧ headLegal 0x0A (imgFrame 4096 [5]) = true ∧ (imgFrame 4096 [5]).addr ≠ 0 ∧
       (rec0 3 0).reqs.find? (fun q => q.1 == (imgFrame 4096 [5]).tag.toNat && q.2.1 == (imgFrame 4096 [5]).addr.toNat) = some (7, 4096, 0, 0)) := by
  decide +kernel
theorem wit_ImagesAreFetched_answer :
    let u := imaged.tickTo 9
    u.imageLink 17 = true ∧ ecrcOk 0x0A (imgFrame 4096 []) = true ∧ headLegal 0x0A (imgFrame 4096 []) = true ∧ u.inRecovery = false ∧
    u.sec.image.valid = true ∧ u.sec.flash = [] ∧ (u.sec.image.bytes.drop 4096).take 4096 ≠ [] :=
  ⟨by decide +kernel, ecrcOk_imgFrame _ _, by decide +kernel⟩

def attest0 (q : Nat) (done : Bool) : Attest := { mbox := 16, unit := cmd 16 0xC1 (List.replicate 48 0), q := q, done := done }
/-- The module with a part of its security state. -/
def secured (f : Sec → Sec) (hours : Nat := 1536) : State := { active with sec := f active.sec, dep := { active.dep with hours := hours } }

theorem wit_SecurityEventsTakePlace :
    (let u := (secured fun x => { x with since := some 0, runSvn := 1 }).tickTo 9
     u.sec.since = some 0 ∧ u.sec.boot = 7 ∧ u.sec.svn < u.sec.runSvn ∧ 0 + 1536 = u.dep.hours ∧ u.sec.fuseTo = none ∧ u.sec.dbgStep = none ∧
       u.sec.fuseBusy = none) ∧
    (let u := (secured fun x => { x with fuseBusy := some false }).tickTo 9
     NoneHeld u ∧ u.sec.fuseBusy = some false) ∧
    (let u := (secured fun x => { x with fuseBusy := some true, dbgStep := some (cmd 16 0xC2 [], 1) }).tickTo 9
     NoneHeld u ∧ u.sec.fuseBusy = some true ∧ u.sec.dbgStep = some (cmd 16 0xC2 [], 1) ∧ (u.parcel 0).st = .active) := by decide +kernel
theorem wit_SecurityEventsTakePlace_reports :
    (∀ x ∈ [(1023, false), (1024, true), (1024, false)],
     let u := (secured fun y => { y with lmsBusy := true, attests := [attest0 x.1 false], treeReady := x.2 }).tickTo 9
     NoneHeld u ∧ u.sec.lmsBusy = true ∧ u.sec.attests = [attest0 x.1 false] ∧ Tab.wf 0 (u.box 16).staging = true ∧ u.sec.treeReady = x.2) ∧
    (let u := (secured fun y => { y with attests := [attest0 1024 true] }).tickTo 9
     NoneHeld u ∧ u.sec.attests = [attest0 1024 true] ∧ Tab.wf 0 (u.box 16).staging = true) ∧
    (active.tickTo 9).sec.attests = [] ∧ ((secured id).tickTo 9).sec.refill ≠ ((secured id).tickTo 9).dep.hours / 4 ∧
    (let u := (secured fun y => { y with challenge := some (5, 0) }).tickTo 1300000000
     u.sec.challenge = some (5, 0) ∧ 0 + 1300000000 = u.aon) ∧
    (let u := (secured fun y => { y with dbgStep := some (cmd 16 0xC2 [], 3) }).tickTo 9
     NoneHeld u ∧ u.sec.dbgStep = some (cmd 16 0xC2 [], 3) ∧ u.anyResetting = false ∧ u.nv = true) := by decide +kernel

/-- Parcel 0 is declared with the Stations that it holds, and an apply of mode 2 is under way. -/
def applying : State :=
  { active with
    parcels := [(0, { active.parcel 0 with quotaN := [0, 0, 0, 0] })]
    plan := { active.plan with
      force := { gen := 1, baseGen := 0, entries := [{ pid := 0x10, scope := 0, sub := 0, value := natLe 8 3 }], bytes := [] }
      apply := some { mode := 2, from' := 0, unit := some (cmd 16 0x91 [2]), resets := false, base := none } } }
def flash0 : FlashJob := { why := .base active.plan.force, left := 3, busy := true, mbox := 16, unit := none }

theorem wit_ConfigurationsSwitch :
    (let u := applying.tickTo 26000
     NoneHeld u ∧ u.plan.apply = some { mode := 2, from' := 0, unit := some (cmd 16 0x91 [2]), resets := false, base := none } ∧
       u.anyResetting = false ∧ u.trv.cl.event = none ∧ u.trv.cl.running = false ∧ (u.parcel 0).st = .active ∧
       (let g := u.plan.target { mode := 2, from' := 0, unit := some (cmd 16 0x91 [2]), resets := false, base := none }
        ∀ p < 16, (u.parcel p).st = .active → u.changes g.1 g.2 p = false) ∧ 0 + 26000 = u.aon) ∧
    (let u := (secured fun y => { y with keyQ := [(.slot 1 .empty, 16, some (cmd 16 0xC0 []))], keyBusy := true }).tickTo 9
     NoneHeld u ∧ u.sec.keyQ = [(.slot 1 .empty, 16, some (cmd 16 0xC0 []))] ∧ u.sec.keyBusy = true) := by decide +kernel
theorem wit_ConfigurationsSwitch_flash :
    let u := (secured fun y => { y with flash := [flash0] }).tickTo 9
    NoneHeld u ∧ u.sec.flash = [flash0] ∧ flash0.busy = true ∧ 2 < flash0.left ∧ u.nv = true :=
  ⟨by decide +kernel, rfl, by decide +kernel⟩

theorem wit_TheTestPortSelects :
    on.pwr.powered = true ∧ on.sec.open' = false ∧ on.pwr.resetN = true ∧ (starting false).pwr.powered = true ∧ (starting false).pwr.resetN = false ∧
    (secured fun x => { x with open' := true }).pwr.powered = true ∧ (secured fun x => { x with open' := true }).sec.open' = true := by
  decide +kernel

/-! ### Clocks, power and dependability -/

def clocked (f : Clk → Clk) : State := { active with clk := f active.clk }

/-- The first second of power samples has a mean of 2,201 W. -/
def hotSecond (f : Clk → Clk) : State :=
  let s := clocked f
  { s with pwr := { s.pwr with secs := [(0, 2201, 1)] } }

theorem wit_TheDividerSwitches :
    (clocked fun c => { c with switch := some (6, 5, false) }).clk.switch = some (6, 5, false) ∧
    (∀ y ∈ [none, some 5],
     let s := clocked fun c => { c with switch := some (5, 6, true), trimNext := y }
     s.clk.switch = some (5, 6, true) ∧ s.divLimit = 6 ∧ s.clk.trimNext = y ∧ s.clk.trim ≠ 5) ∧
    (let s := clocked fun c => { c with switch := some (6, 5, true), proj := 8 }
     s.divLimit ≠ 5 ∧ s.clk.ramp = none) ∧
    (clocked fun c => { c with ramp := some 5 }).clk.ramp = some 5 ∧
    (let u := (hotSecond fun c => { c with switch := some (6, 7, false), proj := 7 }).tickTo 13000000
     u.clk.switch = some (6, 7, false) ∧ u.clk.window.getD 0 < u.aon / 13000000 ∧ u.pwr.window 0 = (2201, 1) ∧ u.clk.proj < 8) ∧
    (let u := (hotSecond fun c => { c with div := 7, margin := 7, proj := 6 }).tickTo 13000000
     u.clk.switch = none ∧ u.divLimit = u.clk.div ∧ u.clk.window.getD 0 < u.aon / 13000000 ∧ u.pwr.window 0 = (2201, 1) ∧
       u.clk.proj < u.clk.div) := by decide +kernel

def powered (f : Pwr → Pwr) : State := { active with pwr := f active.pwr }

theorem wit_PowerIsKept :
    (let u := (hotSecond fun c => { c with proj := 7 }).tickTo 13000000
     u.clk.window.getD 0 < u.aon / 13000000 ∧ u.pwr.window (u.aon / 13000000 - 1) = (2201, 1) ∧ u.clk.proj < 8 ∧ u.clk.margin < u.clk.proj ∧
       u.pwr.secs.drop 1 = []) ∧
    ((clocked fun c => { c with window := some 1 }).tickTo 13000000).clk.window.getD 0 = 13000000 / 13000000 ∧
    ((active.tickTo 9).pwr.powered = true ∧ (active.tickTo 12999).aon / 13000 = active.pwr.msWin ∧ (active.tickTo 13000).aon / 13000 ≠ active.pwr.msWin) ∧
    (let u := (clocked fun c => { c with quiet := some 0, guard := 6 }).tickTo 130000
     u.clk.quiet = some 0 ∧ 0 + 130000 = u.aon ∧ 5 < u.clk.guard) ∧
    (let u := (powered fun p => { p with stn := [(63, .ready)] }).tickTo 1300
     u.spow 63 = .ready ∧ tget 0 u.pwr.since 63 + 1300 = u.aon ∧ (u.stn 63).mode = .idle ∧ u.hasWork 63 = false) ∧
    (∀ w ∈ [SPow.off, .parked],
     let u := (powered fun p => { p with waking := [(63, w)] }).tickTo 9
     u.pwr.waking.find? (fun x => x.1 == 63) = some (63, w) ∧ u.pwr.supply ≠ .abort) := by decide +kernel

theorem wit_SupplyStatesChange :
    (active.tickTo 9).pwr.powered = true ∧ (active.tickTo 9).pwr.supply = .normal ∧ (4049#16).toNat < 4050 ∧
    (let u := (powered fun p => { p with supply := .sag }).tickTo 9
     u.pwr.powered = true ∧ u.pwr.supply = .sag ∧ 4150 < (4151#16).toNat ∧ (3999#16).toNat < 4000) ∧
    (let u := (serving (asked .decode)).tickTo 9
     NothingWaits u ∧ u.pwr.powered = true ∧ u.pwr.supply ≠ .abort ∧ (3799#16).toNat < 3800 ∧ (u.req 65535).live = true) ∧
    (let u := (powered fun p => { p with supply := .abort }).tickTo 9
     u.pwr.powered = true ∧ u.pwr.supply = .abort ∧ 4000 ≤ (4000#16).toNat ∧ (4150#16).toNat ≤ 4150) := by decide +kernel

theorem wit_FaultsResetTheModule :
    (active.tickTo 9).pwr.powered = true ∧ ((3499#16).toNat < 3500 ∧ 5000 < (5001#16).toNat) ∧ (2#3 ≠ 0 ∧ (2#3).getLsbD 1 = true) ∧
    (let u := ({ active with dep := { active.dep with pairs := 4 } } : State).tickTo 9
     u.dep.pairs.getLsbD 0 = false ∧ u.dep.pairs.getLsbD ((0 + 2) % 4) = true) ∧
    (let u := (serving (asked .decode)).tickTo 9
     u.dep.pairs.getLsbD 2 = false ∧ u.dep.pairs.getLsbD ((2 + 2) % 4) = false ∧ NothingWaits u ∧ (u.req 65535).live = true ∧
       (u.req 65535).remote = none ∧ (u.req 65535).port = 2 / 2) := by decide +kernel

/-- A window that opened at 1,536, in which Station 5 was read with these slacks. -/
def window1 (hours : Nat) (sl : List Int) : State :=
  { active with
    dep := { active.dep with hours := hours, window := some (1536, [5]), slack := [(5, (6, 0, sl))] }, pwr := { active.pwr with stn := [(63, .parked)] } }

theorem wit_DependabilityIsKept :
    ((active.tickTo 9).mem.round = [] ∧ 1 < (active.tickTo 9).dutyOf 3 ∧ 1 ≤ nextBand ((active.tickTo 9).die 3).band 400) ∧
    (let u := (secured id).tickTo 9
     u.sec.boot = 7 ∧ u.dep.hours ≠ 0 ∧ u.dep.hours % 1536 = 0 ∧ u.dep.window = none) ∧
    (let u := (window1 1599 [900, 900, 900, 900]).tickTo 9
     u.dep.window = some (1536, [5]) ∧ u.dep.hours < 1536 + 64 ∧ [5].contains 63 = false ∧ (u.stn 63).mode = .idle ∧ u.testWaits 63 = false ∧ u.spow 63 ≠ .off ∧
       u.isWithdrawn 63 = false) ∧
    (let u := (window1 1600 [900, 900, 900, 900]).tickTo 9
     u.dep.window = some (1536, [5]) ∧ 1536 + 64 = u.dep.hours ∧ (planMargin u.clk.margin ((u.readings [5]).map (·.2))).isSome = true) ∧
    (let u := (window1 1600 [-9000, -9000, -9000, -9000]).tickTo 9
     planMargin u.clk.margin ((u.readings [5]).map (·.2)) = none ∧ (u.readings [5]).any (fun r => decide (r.1 < 64) && !readingOk r.2 8 60 500) = true) ∧
    ((active.tickTo 9).pwr.powered = true ∧ (active.tickTo 9).dep.hours < 0xFFFFFFFF) ∧
    ((secured id).tickTo 9).cairn.period + 1536 ≤ ((secured id).tickTo 9).dep.hours := by decide +kernel
theorem wit_DependabilityIsKept_flush :
    let r : CRec := { kind := 3, flags := 0, source := 0, scope := 0, rpt := 1, rseq := 0, hFirst := 0, cFirst := 0, hLast := 0, body := [],
                      closed := true, opened := 0 }
    let u := ({ active with cairn := { active.cairn with buf := [r] } } : State).tickTo 9
    u.sec.boot = 7 ∧ u.nv = true ∧ u.sec.flash = [] ∧ u.cairn.buf.any (·.closed) = true ∧ u.cairn.next % 2 = 0 := by decide +kernel

theorem wit_TheBucketLimitsReports :
    let c := cmd 0 0xC1 (List.replicate 48 0)
    ((secured id).tickTo 9).sec.refill ≠ ((secured id).tickTo 9).dep.hours / 4 ∧
    (let u := (secured (fun x => { x with refill := 384 }) 1537).tickTo 9; u.sec.refill = u.dep.hours / 4) ∧
    ∀ x ∈ [(0, 0), (1, 1048576), (64, 1048575)],
      let u := ({ boxed with sec := { boxed.sec with bucket := x.1, nextQ := x.2 } } : State).tickTo 9
      MayRun u 0 c 0x00C1 ∧ u.nv = true ∧ u.sec.bucket = x.1 ∧ u.sec.nextQ = x.2 := by
  refine ⟨by decide +kernel, by decide +kernel, ?_⟩
  intro x hx
  simp only [List.mem_cons, List.not_mem_nil, or_false] at hx
  rcases hx with rfl | rfl | rfl <;> exact ⟨mayRun_cmd _ _ _ _ (by decide +kernel), by decide +kernel⟩

/-! ### The front panel, the registers and the machine -/

/-- Cage `c` holds a module since time 0; it has power, or it has been switched off. -/
def caged (c : Nat) (fault : BitVec 32) : State :=
  { active with panel := { active.panel with present := [(c, 0)], power := if fault = 0 then 1#20 <<< c else 0, fault := fault } }

theorem wit_CagesAreSwitched :
    (∀ c ∈ [(0 : Fin 20), 1, 2, 19], ((caged c.val 0).tickTo 9).panel.power.getLsbD c = true) ∧
    (tkeys ((caged 19 0).tickTo 9).panel.present).contains (0 : Fin 20).val = false ∧
    (let u := (caged 19 0).tickTo 130000
     u.panel.present.find? (fun y => y.1 == 19) = some (19, 0) ∧ u.pwr.powered = true ∧ 0 + 130000 = u.aon ∧ u.panel.fault.getLsbD 17 = false) ∧
    ((caged 1 (1#32 <<< 19)).tickTo 130000).panel.fault.getLsbD 19 = true ∧
    (active.tickTo 9).pwr.silent = false ∧ (active.tickTo 9).panel.fault.getLsbD 19 = false := by decide +kernel

theorem wit_RegistersAreWritten : (63 < 64 ∧ 35 < 36 ∧ 3 < 4 ∧ 17 < 18 ∧ 16 < 17) ∧ RegId.stnConflictInfo ∈ [RegId.stnConflictInfo, .stnCounter 0] := by
  decide

theorem wit_MemoryStaysCanonical :
    active.mem.wf = true ∧ ∃ t, step { active with pending := [.rstdaa, .getbcr] } = .next t := ⟨by decide +kernel, _, rfl⟩
theorem wit_OnlyTheFirstCommandLeaves : ∃ t, step { active with pending := [.rstdaa, .getbcr] } = .next t ∧ t.pending = [.getbcr] := ⟨_, rfl, rfl⟩

end Sys2Proof.Tests
end

/-! ### Sending: what leaves touches the output, the I3C target and the Traverse alone (R377, R381, R421, R422) -/

section
namespace Sys2Proof.Machine

/-- A frame placed on a link touches the output and the Traverse alone. -/
theorem sendOn_spec (s : State) (p k q : Nat) (e : EFrame) : ∃ o v, s.sendOn p k q e = { s with out := o, trv := v } := by
  unfold State.sendOn
  dsimp only
  split <;> exact ⟨_, _, rfl⟩

/-- A frame that leaves a port touches the output and the Traverse alone. -/
theorem pumpOne_spec {s s' : State} {p : Nat} (h : s.pumpOne p = some s') : ∃ o v, s' = { s with out := o, trv := v } := by
  simp only [State.pumpOne] at h
  split at h
  · cases h
  · obtain ⟨e, -, rfl⟩ := Option.map_eq_some_iff.1 h
    obtain ⟨o, v, he⟩ := sendOn_spec (s.modPort p _) p _ _ e
    exact ⟨o, v, he⟩

/-- However many frames leave a port, they touch the output and the Traverse alone. -/
theorem pump_spec (s : State) (p n : Nat) : ∃ o v, s.pump p n = { s with out := o, trv := v } := by
  induction n generalizing s with
  | zero => exact ⟨s.out, s.trv, rfl⟩
  | succ n ih =>
    rw [State.pump]
    split
    next s' h =>
      obtain ⟨o, v, rfl⟩ := pumpOne_spec h
      exact ih { s with out := o, trv := v }
    next => exact ⟨s.out, s.trv, rfl⟩

/-- A frame of this module touches the output and the Traverse alone, whichever way it takes. -/
theorem trvOut_spec (s : State) (kind cls dest dp sp tag addr : Nat) (pay : List Byte) :
    ∃ o v, s.trvOut kind cls dest dp sp tag addr pay = { s with out := o, trv := v } := by
  unfold State.trvOut
  dsimp only
  split
  · exact ⟨_, s.trv, rfl⟩
  · split
    next p _ =>
      obtain ⟨o, v, e⟩ := pump_spec (s.modPort p _) p _
      exact ⟨o, v, e⟩
    next => split <;> exact ⟨_, _, rfl⟩

/-- A unit touches the output, the I3C target and the Traverse alone, whatever its transport. -/
theorem sendUnit_spec (s : State) (d : USource) (k m : Nat) (q c : BitVec 16) (g : BitVec 32) (pay : List Byte) :
    ∃ o i v, s.sendUnit d k m q c g pay = { s with out := o, i3c := i, trv := v } := by
  unfold State.sendUnit
  split
  · exact ⟨_, s.i3c, s.trv, rfl⟩
  · dsimp only
    split <;> exact ⟨_, _, s.trv, rfl⟩
  · obtain ⟨o, v, e⟩ := trvOut_spec s 0x05 0 d.module.toNat ((d.parcel.map (·.val)).getD 0) (if m < 16 then m else 0) g.toNat 0
      (unitBytes k m q c g pay)
    exact ⟨o, s.i3c, v, e⟩

/-! ### Responses (R416, R474) -/

/-- A mailbox once a response to command `u` has been sent: the command no longer executes, and the response is cached first. -/
def Mbox.answered (b : Mbox) (u : MUnit) (st : Status) (pay : List Byte) : Mbox :=
  { b with
    wait := if b.wait = some u then none else b.wait
    cache := ({ seq := u.seq, code := st, tag := u.tag, pay := pay } :: b.cache.filter fun r => r.seq != u.seq).take 64 }

/-- Of the security state, noting a status changes the last status alone, and that only when R474 allocates the status. -/
theorem noteStatus_sec (s : State) (op : Nat) (st : Status) :
    (s.noteStatus op st).sec = { s.sec with last := if secCodes.contains st then st else s.sec.last } := by
  unfold State.noteStatus
  dsimp only
  split <;> split <;> split <;> rfl

/-- A response changes its mailbox, the last statuses that registers show, the counters of power and dependability, and what a unit that
leaves touches. -/
theorem respond_spec (s : State) (m : Nat) (u : MUnit) (st : Status) (pay : List Byte) :
    ∃ o i v l p, s.respond m u st pay =
      { s.modBox m (·.answered u st pay) with
        out := o, i3c := i, trv := v, plan := { s.plan with last := l }, pwr := { s.pwr with ctr := p }
        sec := { s.sec with last := if secCodes.contains st then st else s.sec.last } } := by
  obtain ⟨l, x, p, hn⟩ := noteStatus_spec s u.code.toNat st
  have hx := (noteStatus_sec s u.code.toNat st).symm.trans (congrArg State.sec hn)
  obtain ⟨o, i, v, ha⟩ := sendUnit_spec (s.noteStatus u.code.toNat st) u.source 2 m u.seq st u.tag pay
  refine ⟨o, i, v, l, p, ?_⟩
  rw [State.respond, State.answer, ha, hn, hx]
  rfl

/-- Of the mailboxes, a response changes its own alone. -/
theorem box_respond (s : State) (m : Nat) (u : MUnit) (st : Status) (pay : List Byte) (j : Nat) :
    (s.respond m u st pay).box j = (s.modBox m (·.answered u st pay)).box j := by
  obtain ⟨o, i, v, l, p, e⟩ := respond_spec s m u st pay
  rw [e]
  rfl

/-- A response holds no command back. -/
theorem noneHeld_respond {s : State} (h : Claim.NoneHeld s) (m : Nat) (u : MUnit) (st : Status) (pay : List Byte) :
    Claim.NoneHeld (s.respond m u st pay) := by
  intro j hj
  rw [box_respond]
  by_cases e : j = m
  · subst e
    rw [box_modBox_self]
    exact h j hj
  · rw [box_modBox_ne s e]
    exact h j hj

/-! ### The checks of a command (R425) -/

/-- But for REG_READ, the check of a command's operands does not look at the state. -/
theorem argsOk_eq (s t : State) (op : Nat) (b : List Byte) (hop : op ≠ 0x80) : s.argsOk op b = t.argsOk op b := by
  unfold State.argsOk
  dsimp only
  split
  any_goals contradiction
  all_goals rfl

/-- But for REG_READ, the check of a command's privilege does not look at the state. -/
theorem noPrivilege_eq (s t : State) (m op : Nat) (b : List Byte) (hop : op ≠ 0x80) : s.noPrivilege m op b = t.noPrivilege m op b := by
  have e : (op == 0x80) = false := beq_eq_false_iff_ne.2 hop
  simp only [State.noPrivilege, e, Bool.false_and]

/-- But for REG_READ, checks 1 to 5 do not look at the mailboxes or their counters. -/
theorem cmdCheck_box (s : State) (j : Nat) (k : BC) (f : Mbox → Mbox) (m op : Nat) (b : List Byte) (hop : op ≠ 0x80) :
    ((s.boxCount j k).modBox j f).cmdCheck m op b = s.cmdCheck m op b := by
  unfold State.cmdCheck
  rw [argsOk_eq _ s op b hop, noPrivilege_eq _ s m op b hop]
  rfl

/-! ### A command whose turn it is, from its arrival to its end (R415 to R417) -/

theorem box_begun_self (s : State) (m : Nat) (u : MUnit) :
    (Claim.begun s m u).box m = { s.box m with next := u.seq + 1, wait := some u } := by
  simp only [Claim.begun, box_modBox_self]
  rfl

theorem box_begun_ne (s : State) {m j : Nat} (u : MUnit) (h : j ≠ m) : (Claim.begun s m u).box j = s.box j := by
  simp only [Claim.begun, box_modBox_ne _ h]
  rfl

section
variable {s : State} {m t : Nat} {c : MUnit} {op : BitVec 16}

/-- The unit of a command whose turn it is carries the command's opcode. -/
theorem code_of_mayRun (h : Claim.MayRun s m c op.toNat) : c.code = op := by
  obtain ⟨⟨-, -, hcode, -⟩, -⟩ := h
  exact BitVec.eq_of_toNat_eq hcode

/-- No command is held at a mailbox once such a command has begun. -/
theorem noneHeld_begun (h : Claim.MayRun s m c op.toNat) : Claim.NoneHeld (Claim.begun s m c) := by
  obtain ⟨⟨-, -, -, -, -, hidle⟩, -⟩ := h
  intro j hj
  obtain ⟨-, hsync, hheld⟩ := hidle j hj
  by_cases e : j = m
  · subst e
    simpa only [box_begun_self] using And.intro hsync hheld
  · simpa only [box_begun_ne _ _ e] using And.intro hsync hheld

/-- The row of a command whose turn it is brings its unit to the mailbox at the time of the row. -/
theorem mboxCommand_eq_receive (h : Claim.MayRun (s.tickTo t) m c op.toNat) : mboxCommand op c t s = (s.tickTo t).receive c := by
  obtain rfl := code_of_mayRun h
  rfl

/-- A command whose turn it is and which passes its checks is executed, and then waiting commands go on. -/
theorem receive_execute (h : Claim.MayRun s m c op.toNat) (h1 : op ≠ 1#16) : s.receive c = (s.execute m c).pumpBoxes := by
  have hc := code_of_mayRun h
  obtain ⟨⟨⟨hbox, hm, hworks, hwhole, hperm, hlegal⟩, hkind, -, hturn, -, hidle⟩, -⟩ := h
  have hnext : c.seq = (s.box m).next := hturn.resolve_left fun e => h1 (BitVec.eq_of_toNat_eq e)
  subst hbox hc
  rw [receive_command s c hworks hm hwhole hperm hlegal hkind, command_next s _ c hnext (hidle _ (Nat.lt_succ_of_le hm)).1 h1]

/-- Counting such a command and moving NEXT behind it leaves its checks as they were. -/
theorem cmdCheck_mayRun (h : Claim.MayRun s m c op.toNat) (h80 : op ≠ 0x80#16) :
    ((s.boxCount m .cmds).modBox m fun b => { b with next := c.seq + 1 }).cmdCheck m c.code.toNat c.payload = none := by
  obtain ⟨⟨-, -, hcode, -⟩, hcheck⟩ := h
  rw [hcode, cmdCheck_box _ _ _ _ _ _ _ fun e => h80 (BitVec.eq_of_toNat_eq e), hcheck]

/-- Such a command ends in the state of its effect when it keeps its response. -/
theorem execute_later {v : State} (h : Claim.MayRun s m c op.toNat) (h1 : op ≠ 1#16) (h80 : op ≠ 0x80#16)
    (hrun : runCmd m c (Claim.begun s m c) = v.later) : s.execute m c = v := by
  rw [Claim.begun] at hrun
  simp only [execute_runs s m c (code_of_mayRun h ▸ h1) (cmdCheck_mayRun h h80), hrun, State.later]

/-- Else such a command responds in the state of its effect. -/
theorem execute_responds {v : State} {st : Status} {pay : List Byte} (h : Claim.MayRun s m c op.toNat) (h1 : op ≠ 1#16) (h80 : op ≠ 0x80#16)
    (hrun : runCmd m c (Claim.begun s m c) = (v, some (st, pay))) : s.execute m c = v.respond m c st pay := by
  rw [Claim.begun] at hrun
  simp only [execute_runs s m c (code_of_mayRun h ▸ h1) (cmdCheck_mayRun h h80), hrun]

/-- A command that keeps its response ends in the state of its effect, when that leaves the mailboxes as they were at its begin. -/
theorem receive_later {v : State} (h : Claim.MayRun s m c op.toNat) (h1 : op ≠ 1#16) (h80 : op ≠ 0x80#16)
    (hrun : runCmd m c (Claim.begun s m c) = v.later) (hmbox : v.mbox = (Claim.begun s m c).mbox) :
    s.receive c = v ∧ Claim.Executing v m c := by
  have hbox (j : Nat) : v.box j = (Claim.begun s m c).box j := by rw [State.box, hmbox, ← State.box]
  constructor
  · rw [receive_execute h h1, execute_later h h1 h80 hrun]
    exact pumpBoxes_idle v fun j hj => hbox j ▸ noneHeld_begun h j hj
  · rw [Claim.Executing, hbox, box_begun_self]
    exact ⟨rfl, rfl⟩

/-- A command that is refused without an effect is answered at once. -/
theorem receive_no {st : Status} (h : Claim.MayRun s m c op.toNat) (h1 : op ≠ 1#16) (h80 : op ≠ 0x80#16)
    (hrun : runCmd m c (Claim.begun s m c) = (Claim.begun s m c).no st) :
    s.receive c = (Claim.begun s m c).respond m c st [] ∧ Claim.Answered (s.receive c) m c st [] := by
  have hr : s.receive c = (Claim.begun s m c).respond m c st [] := by
    rw [receive_execute h h1, execute_responds h h1 h80 hrun]
    exact pumpBoxes_idle _ (noneHeld_respond (noneHeld_begun h) m c st [])
  refine ⟨hr, ?_⟩
  rw [hr, Claim.Answered, box_respond, box_modBox_self, box_begun_self]
  exact ⟨rfl, if_pos rfl, rfl⟩

end

end Sys2Proof.Machine
end

/-! ### Attestation and its bucket (R464 to R466) -/

section
namespace Sys2Proof.Machine

/-- Of everything, starting the counter write can change only whether one is under way. -/
theorem startLms_spec (s : State) : ∃ b, s.startLms = { s with sec := { s.sec with lmsBusy := b } } := by
  unfold State.startLms
  split
  · exact ⟨s.sec.lmsBusy, rfl⟩
  · exact ⟨true, rfl⟩

section
variable {s : State} (m : Nat) (u : MUnit)

/-- With no unit in the bucket, ATTEST is refused. -/
theorem cmdAttest_noUnit (hnv : s.nv = true) (hb : s.sec.bucket = 0) : cmdAttest m u s = s.no 0x02D1#16 := by
  simp [cmdAttest, hnv, hb]

/-- With a unit but no signature number left, ATTEST is refused. -/
theorem cmdAttest_exhausted (hnv : s.nv = true) (hb : s.sec.bucket ≠ 0) (hq : 1048576 ≤ s.sec.nextQ) :
    cmdAttest m u s = s.no 0x0665#16 := by
  simp [cmdAttest, hnv, hb, hq]

/-- Else ATTEST takes the next signature number and one unit, and the report waits for the counter write. -/
theorem cmdAttest_taken (hnv : s.nv = true) (hb : s.sec.bucket ≠ 0) (hq : s.sec.nextQ < 1048576) :
    ∃ b, cmdAttest m u s = State.later { s with sec := { s.sec with
      nextQ := s.sec.nextQ + 1, bucket := s.sec.bucket - 1, lmsBusy := b
      attests := s.sec.attests ++ [{ mbox := m, unit := u, q := s.sec.nextQ, done := false }] } } := by
  obtain ⟨b, e⟩ := startLms_spec (s.modSec fun x => { x with
    nextQ := x.nextQ + 1, bucket := x.bucket - 1, attests := x.attests ++ [{ mbox := m, unit := u, q := x.nextQ, done := false }] })
  refine ⟨b, ?_⟩
  simp only [cmdAttest, hnv, hb, Nat.not_le.2 hq, Bool.not_true, Bool.false_eq_true, if_false, e]
  rfl

end

/-- Once operating hours have passed that were not yet counted, the bucket gains a unit for every 4 of them, up to 64. -/
theorem bucketRefill_due (t : Nat) {s : State} (h : (s.tickTo t).sec.refill ≠ (s.tickTo t).dep.hours / 4) :
    bucketRefill t s = { s.tickTo t with sec := { (s.tickTo t).sec with
      bucket := min 64 ((s.tickTo t).sec.bucket + ((s.tickTo t).dep.hours / 4 - (s.tickTo t).sec.refill))
      refill := (s.tickTo t).dep.hours / 4 } } := if_neg h

/-- With no such hours the bucket stays as it is. -/
theorem bucketRefill_notDue (t : Nat) {s : State} (h : (s.tickTo t).sec.refill = (s.tickTo t).dep.hours / 4) :
    bucketRefill t s = s.tickTo t := if_pos h

theorem exec_bucketRefill (t : Nat) (s : State) : exec (.bucketRefill t) s = .next (bucketRefill t s) := rfl

theorem exec_attest {s : State} {m t : Nat} {c : MUnit} (h : Claim.MayRun (s.tickTo t) m c 0x00C1) :
    exec (.attest c t) s = .next ((s.tickTo t).receive c) := congrArg _ (mboxCommand_eq_receive (op := 0x00C1#16) h)

theorem runCmd_attest (m : Nat) {u : MUnit} (s : State) (h : u.code = 0x00C1#16) : runCmd m u s = cmdAttest m u s := by
  simp only [runCmd, h]
  rfl

end Sys2Proof.Machine

namespace Sys2Proof.Claim
open Sys2Proof Sys2Proof.Machine

section
variable {u : State} {m : Nat} {c : MUnit}

/-- An ATTEST that is answered with a status of R474 leaves the bucket and everything but its answer as it was. -/
theorem attest_refused {st : Status} (h : MayRun u m c 0x00C1) (hst : secCodes.contains st = true)
    (hrun : cmdAttest m c (begun u m c) = (begun u m c).no st) :
    Answered (u.receive c) m c st [] ∧ (u.receive c).sec = { u.sec with last := st } ∧ (u.receive c).mem = u.mem ∧
      (u.receive c).stns = u.stns ∧ (u.receive c).reqs = u.reqs ∧ (u.receive c).trk = u.trk := by
  obtain ⟨hr, hans⟩ := receive_no (op := 0x00C1#16) h (by decide) (by decide)
    ((runCmd_attest m _ (code_of_mayRun (op := 0x00C1#16) h)).trans hrun)
  obtain ⟨o, i, x, l, p, hv⟩ := respond_spec (begun u m c) m c st []
  refine ⟨hans, ?_⟩
  rw [hr, hv, if_pos hst]
  exact ⟨rfl, rfl, rfl, rfl, rfl⟩

/-- An ATTEST that finds a unit and a signature number takes one of each and keeps its response. -/
theorem attest_taken (h : MayRun u m c 0x00C1) (hnv : u.nv = true) (hb : u.sec.bucket ≠ 0) (hq : u.sec.nextQ < 1048576) :
    Executing (u.receive c) m c ∧ (u.receive c).sec.bucket = u.sec.bucket - 1 ∧ (u.receive c).sec.nextQ = u.sec.nextQ + 1 ∧
      (u.receive c).mem = u.mem ∧ (u.receive c).stns = u.stns ∧ (u.receive c).reqs = u.reqs := by
  obtain ⟨b, e⟩ := cmdAttest_taken (s := begun u m c) m c hnv hb hq
  obtain ⟨hr, hexec⟩ := receive_later (op := 0x00C1#16) h (by decide) (by decide)
    ((runCmd_attest m _ (code_of_mayRun (op := 0x00C1#16) h)).trans e) rfl
  rw [hr]
  exact ⟨hexec, rfl, rfl, rfl, rfl, rfl⟩

end

/-- Settles O54: a refill by the equations of `bucketRefill`, a report by those of `cmdAttest`, which the laws of the mailbox carry from
the effect of the command to its arrival. -/
theorem theBucketLimitsReports : Obligations.TheBucketLimitsReports := by
  unfold Obligations.TheBucketLimitsReports
  intro s m c t u k refused
  refine ⟨fun h => ?_, fun h => ?_, fun hrun hnv => ⟨fun hb => ?_, fun hb hq => ?_, fun hb hq => ?_⟩⟩
  · rw [exec_bucketRefill, bucketRefill_due t h]
  · rw [exec_bucketRefill, bucketRefill_notDue t h]
  · exact ⟨_, exec_attest hrun, attest_refused hrun (by decide) (cmdAttest_noUnit m c hnv hb)⟩
  · exact ⟨_, exec_attest hrun, attest_refused hrun (by decide) (cmdAttest_exhausted m c hnv hb (Nat.le_of_eq hq.symm))⟩
  · obtain ⟨hexec, hbucket, hnext, hkeeps⟩ := attest_taken hrun hnv hb hq
    exact ⟨_, exec_attest hrun, hexec, hbucket, hnext, fun hle => hbucket ▸ Nat.le_trans (Nat.sub_le ..) hle, hkeeps⟩

end Sys2Proof.Claim
end

/-! ### The divider and the trim (R479 to R482) -/

section
namespace Sys2Proof.Machine

/-- Of a table into which a function's values have been written, each key reads the function's value where the key was written. -/
theorem tget_foldl_fput {α : Type} (d : α) (g : Nat → α) (l : List Nat) (t : Tab α) (k : Nat) :
    tget d (l.foldl (fun t i => fput t i (g i)) t) k = if k ∈ l then g k else tget d t k := by
  induction l generalizing t with
  | nil => simp
  | cons a r ih =>
    rw [List.foldl_cons, ih]
    by_cases hr : k ∈ r
    · simp [hr]
    · by_cases ha : k = a
      · subst ha
        simp [hr]
      · simp [hr, ha, tget_fput_ne]

/-! ### The largest limit (R479, R481) -/

section
variable (s : State)

/-- No limit exceeds the largest. -/
theorem le_divLimit : 5 ≤ s.divLimit ∧ s.clk.margin ≤ s.divLimit ∧ s.clk.proj ≤ s.divLimit ∧ s.clk.guard ≤ s.divLimit ∧
    (s.clk.supply = true ∨ s.boostForbidden = true → 6 ≤ s.divLimit) := by
  have h5 : ∀ b : Bool, 5 ≤ if b then 6 else 5 := by decide
  have hsupply := h5 s.clk.supply
  unfold State.divLimit
  dsimp only
  refine ⟨by omega, by omega, by omega, by omega, ?_⟩
  rintro (h | h) <;> simp only [h, if_true] <;> omega

/-- The largest limit is one of the limits. -/
theorem divLimit_mem : s.divLimit ∈ [s.clk.margin, s.clk.proj, s.clk.guard, 5, 6] := by
  have h56 : ∀ b : Bool, (if b then 6 else 5) = 5 ∨ (if b then 6 else 5) = 6 := by decide
  have hsupply := h56 s.clk.supply
  have hboost := h56 s.boostForbidden
  unfold State.divLimit
  simp only [List.mem_cons, List.not_mem_nil, or_false]
  omega

/-- A projection below the largest limit may rise by one without raising it. -/
theorem divLimit_proj_succ {c : Clk} (h : s.clk.proj < s.divLimit) (hproj : c.proj = s.clk.proj + 1) (hmargin : c.margin = s.clk.margin)
    (hguard : c.guard = s.clk.guard) (hsupply : c.supply = s.clk.supply) : State.divLimit { s with clk := c } = s.divLimit := by
  have hboost : State.boostForbidden { s with clk := c } = s.boostForbidden := rfl
  unfold State.divLimit at h ⊢
  simp only [hproj, hmargin, hguard, hsupply, hboost] at h ⊢
  omega

end

/-! ### Recomputing the divider (R480, R481) -/

section
variable {s : State}

/-- During a switch, while the trim moves, or where the largest limit is the divider in force, nothing is recomputed. -/
theorem retarget_stays (h : s.clk.switch.isSome ∨ s.clk.ramp.isSome ∨ s.divLimit = s.clk.div) : s.retarget = s := if_pos h

/-- Else a switch from the divider in force to the largest limit begins, which the Cairn records. -/
theorem retarget_begins (hswitch : s.clk.switch = none) (hramp : s.clk.ramp = none) (hd : s.divLimit ≠ s.clk.div) :
    ∃ r p, s.retarget = { s with
      clk := { s.clk with switch := some (s.clk.div, s.divLimit, false) }, cairn := r, pwr := { s.pwr with ctr := p } } := by
  have hno : ¬ (s.clk.switch.isSome ∨ s.clk.ramp.isSome ∨ s.divLimit = s.clk.div) := by simp [hswitch, hramp, hd]
  obtain ⟨r, p, e⟩ := cairnEvent_spec { s with clk := { s.clk with switch := some (s.clk.div, s.divLimit, false) } } 0x0001 0
    (natLe 1 s.clk.div ++ natLe 1 s.divLimit ++ natLe 1 s.clk.cause)
  exact ⟨r, p, (if_neg hno).trans e⟩

/-- Recomputing the divider in a state whose clock is `c` and which is `s` apart from clock and records. -/
theorem retargets_retarget {v : State} {c : Clk} (hc : v.clk = c) (hv : Claim.OnlyRecords { s with clk := c } v) :
    Claim.Retargets s v.retarget c := by
  subst hc
  have hd : State.divLimit { s with clk := v.clk } = v.divLimit := by rw [hv]; rfl
  by_cases h : v.clk.switch = none ∧ v.clk.ramp = none ∧ v.divLimit ≠ v.clk.div
  · obtain ⟨hswitch, hramp, hne⟩ := h
    obtain ⟨r, p, e⟩ := retarget_begins hswitch hramp hne
    rw [e]
    refine ⟨?_, ?_⟩
    · simp only [hd, hswitch, hramp, hne, ne_eq, not_false_eq_true, and_self, if_true]
    · rw [Claim.OnlyRecords] at hv ⊢
      rw [hv]
  · have hstay : v.clk.switch.isSome ∨ v.clk.ramp.isSome ∨ v.divLimit = v.clk.div := by
      simpa only [Option.isSome_iff_ne_none, ne_eq, Classical.not_and_iff_not_or_not, Classical.not_not] using h
    rw [retarget_stays hstay]
    exact ⟨by simp only [hd, h, if_false], hv⟩

/-- During a switch, or where the largest limit is the divider in force, the clock stays as the recomputation found it. -/
theorem clk_of_retargets_stays {v : State} {c : Clk} (h : Claim.Retargets s v c)
    (hstay : c.switch.isSome ∨ State.divLimit { s with clk := c } = c.div) : v.clk = c := by
  obtain ⟨hclk, -⟩ := h
  refine hclk.trans (if_neg ?_)
  rintro ⟨hswitch, -, hne⟩
  rcases hstay with hsome | hd
  · simp [hswitch] at hsome
  · exact hne hd

/-- A change of a limit leaves a switch under way to complete, and one that asks for the divider in force causes none. -/
theorem limit_stays {cause : Nat} {f : Clk → Clk}
    (h : (f s.clk).switch.isSome ∨ State.divLimit { s with clk := { f s.clk with cause := cause } } = (f s.clk).div) :
    s.limit cause f = { s with clk := { f s.clk with cause := cause } } := retarget_stays (h.imp_right .inr)

/-- The trim that is not yet at a target begins to move there. -/
theorem rampTo_ne {x : Nat} (h : s.clk.trim ≠ x) : s.rampTo x = { s with clk := { s.clk with ramp := some x } } := if_neg h

end

/-! ### A switch stops the clock (R249, R250, R480) -/

/-- The counts of Station `k` when a switch stops it: the freeze, and the cycles of its window that the issue duty froze. -/
def State.stopCounted (s : State) (ctr : BitVec 12) (k : Nat) (c : StCore) : StCore :=
  (c.count .frzDivsw).countDuty (facetCtr ctr (k / 16) - s.dutyOf (k / 16))

/-- A switch stops Station `k` where it is Running. -/
def State.stopStn (ctr : BitVec 12) (s : State) (k : Nat) : State :=
  if s.spow k = .running then s.modCore k (s.stopCounted ctr k) else s

/-- Station `j` once a switch has stopped the Stations that a condition names. -/
def State.stoppedStn (s : State) (ctr : BitVec 12) (p : Prop) [Decidable p] (j : Nat) : Station :=
  if p ∧ s.spow j = .running then { s.stn j with core := s.stopCounted ctr j (s.core j) } else s.stn j

/-- Stopping a Station touches that Station alone. -/
theorem stopStn_spec (ctr : BitVec 12) (s : State) (k : Nat) :
    ∃ x, s.stopStn ctr k = { s with stns := x } ∧ ∀ j, tget .reset x j = s.stoppedStn ctr (j = k) j := by
  unfold State.stopStn State.stoppedStn
  by_cases hrun : s.spow k = .running
  · refine ⟨(s.modCore k (s.stopCounted ctr k)).stns, if_pos hrun, fun j => ?_⟩
    by_cases hj : j = k
    · subst hj
      rw [if_pos ⟨rfl, hrun⟩]
      exact stn_modStn_self s j _
    · rw [if_neg fun h => hj h.1]
      exact stn_modStn_ne s hj _
  · refine ⟨s.stns, if_neg hrun, fun j => (if_neg ?_).symm⟩
    rintro ⟨rfl, h⟩
    exact hrun h

/-- Stopping Stations one after another stops each once. -/
theorem foldl_stopStn_spec (ctr : BitVec 12) (l : List Nat) (hl : l.Nodup) (s : State) :
    ∃ x, l.foldl (State.stopStn ctr) s = { s with stns := x } ∧ ∀ j, tget .reset x j = s.stoppedStn ctr (j ∈ l) j := by
  induction l generalizing s with
  | nil => exact ⟨s.stns, rfl, fun j => (if_neg fun h => List.not_mem_nil h.1).symm⟩
  | cons a r ih =>
    obtain ⟨har, hr⟩ := List.nodup_cons.1 hl
    obtain ⟨y, hy, hstn⟩ := stopStn_spec ctr s a
    obtain ⟨x, hx, hall⟩ := ih hr { s with stns := y }
    refine ⟨x, by rw [List.foldl_cons, hy, hx], fun j => (hall j).trans ?_⟩
    have hread : State.stn { s with stns := y } j = s.stoppedStn ctr (j = a) j := hstn j
    unfold State.stoppedStn at hread ⊢
    by_cases hj : j = a
    · subst hj
      simpa [har] using hread
    · have hsame : State.stn { s with stns := y } j = s.stn j := by simpa [hj] using hread
      simp only [State.core, hsame, List.mem_cons, hj, false_or]
      rfl

/-- The windows of the issue duty, cut short where the hardware's counters stand. -/
def cutDuty (ctr : BitVec 12) (t : Tab Nat) : Tab Nat := (List.range 4).foldl (fun t f => fput t f (facetCtr ctr f)) t

theorem tget_cutDuty (ctr : BitVec 12) (t : Tab Nat) {f : Nat} (hf : f < 4) : tget 0 (cutDuty ctr t) f = facetCtr ctr f := by
  rw [cutDuty, tget_foldl_fput, if_pos (List.mem_range.2 hf)]

/-- The stop of a switch: the windows of the issue duty hold what the hardware counted, and every Running Station is stopped. -/
theorem dividerSwitchStop_spec {s : State} {o n : Nat} (ctr : BitVec 12) (h : s.clk.switch = some (o, n, false)) :
    ∃ d x, dividerSwitchStop ctr s = { s with clk := { s.clk with switch := some (o, n, true), duty := d }, stns := x } ∧
      (∀ f, f < 4 → tget 0 d f = facetCtr ctr f) ∧ ∀ k, tget .reset x k = s.stoppedStn ctr (k < 64) k := by
  obtain ⟨x, hx, hstn⟩ := foldl_stopStn_spec ctr (List.range 64) List.nodup_range
    { s with clk := { s.clk with switch := some (o, n, true), duty := cutDuty ctr s.clk.duty } }
  refine ⟨cutDuty ctr s.clk.duty, x, ?_, fun f hf => tget_cutDuty ctr _ hf, fun k => (hstn k).trans ?_⟩
  · rw [dividerSwitchStop, h]
    exact hx
  · simp only [State.stoppedStn, List.mem_range]
    rfl

/-! ### A switch starts the new clock (R480, R481) -/

/-- A state in which the new divider of a switch is in force, with the windows of the issue duty at their beginning. -/
def State.switched (s : State) (n : Nat) : State :=
  { s with
    clk := { s.clk with switch := none, div := n, duty := [] }
    pwr := { s.pwr with ctr := ctrAdd s.pwr.ctr PC.divSwitches.num 1 } }

/-- The trim that was to follow a switch moves, unless another switch has begun. -/
def State.trimFollows (s : State) : State :=
  if s.clk.switch.isSome then s
  else match s.clk.trimNext with
    | some x => { s with clk := { s.clk with trimNext := none } }.rampTo x
    | none => s

section
variable {s : State} {o n : Nat}

/-- With no trim to follow, nothing moves. -/
theorem trimFollows_none (htrim : s.clk.trimNext = none) : s.trimFollows = s := by
  simp [State.trimFollows, htrim]

/-- With no switch under way, a trim that is to follow begins to move. -/
theorem trimFollows_ramps {x : Nat} (hswitch : s.clk.switch = none) (htrim : s.clk.trimNext = some x) (hx : x ≠ s.clk.trim) :
    s.trimFollows = { s with clk := { s.clk with trimNext := none, ramp := some x } } := by
  have hramp := rampTo_ne (s := { s with clk := { s.clk with trimNext := none } }) hx.symm
  simpa [State.trimFollows, hswitch, htrim] using hramp

/-- A stopped clock starts with the new divider, which is recomputed, and then the trim follows. -/
theorem dividerSwitchResume_eq (h : s.clk.switch = some (o, n, true)) :
    dividerSwitchResume s = (s.switched n).retarget.trimFollows := by
  rw [dividerSwitchResume, h]
  rfl

/-- A new divider that is still the largest limit begins no other switch. -/
theorem retarget_switched_stays (hd : s.divLimit = n) : (s.switched n).retarget = s.switched n := retarget_stays (.inr (.inr hd))

/-- Where the new divider is still the largest limit and no trim is to follow, the switch is over. -/
theorem dividerSwitchResume_done (h : s.clk.switch = some (o, n, true)) (hd : s.divLimit = n) (htrim : s.clk.trimNext = none) :
    dividerSwitchResume s = s.switched n := by
  rw [dividerSwitchResume_eq h, retarget_switched_stays hd]
  exact trimFollows_none htrim

/-- Where the new divider is still the largest limit, a trim that was to follow moves. -/
theorem dividerSwitchResume_ramps {x : Nat} (h : s.clk.switch = some (o, n, true)) (hd : s.divLimit = n)
    (htrim : s.clk.trimNext = some x) (hx : x ≠ s.clk.trim) :
    dividerSwitchResume s = { s.switched n with clk := { (s.switched n).clk with trimNext := none, ramp := some x } } := by
  rw [dividerSwitchResume_eq h, retarget_switched_stays hd]
  exact trimFollows_ramps rfl htrim hx

/-- Where a limit has changed meanwhile and the trim rests, the next switch begins. -/
theorem dividerSwitchResume_again (h : s.clk.switch = some (o, n, true)) (hd : s.divLimit ≠ n) (hramp : s.clk.ramp = none) :
    (dividerSwitchResume s).clk = { (s.switched n).clk with switch := some (n, s.divLimit, false) } ∧
      Claim.OnlyRecords { s with clk := (dividerSwitchResume s).clk } (dividerSwitchResume s) := by
  obtain ⟨r, p, e⟩ := retarget_begins (s := s.switched n) rfl hramp hd
  rw [dividerSwitchResume_eq h, e]
  exact ⟨rfl, rfl⟩

end

/-- The end of a ramp: the trim is at its target, the Cairn records it, and the divider is recomputed. -/
theorem trimRampComplete_retargets {s : State} {x : Nat} (h : s.clk.ramp = some x) :
    Claim.Retargets s (trimRampComplete s) { s.clk with trim := x, ramp := none } := by
  obtain ⟨r, p, e⟩ := cairnEvent_spec { s with clk := { s.clk with trim := x, ramp := none } } 0x0002 0
    (natLe 1 (s.clk.trim / 5) ++ natLe 1 (x / 5))
  simp only [trimRampComplete, h, e]
  exact retargets_retarget rfl rfl

/-! ### The projection (R489) -/

/-- A window of 1 s whose mean is above 2,200 W raises the projection, and the divider is recomputed. -/
theorem projectionWindow_raises {s u : State} {t k : Nat} (lower : Bool) (hu : s.tickTo t = u) (hk : u.aon / 13000000 = k)
    (hnew : u.clk.window.getD 0 < k) (hhot : 2200 * (u.pwr.window (k - 1)).2 < (u.pwr.window (k - 1)).1) (hproj : u.clk.proj < 8) :
    Claim.Retargets u (projectionWindow lower t s) { u.clk with window := some k, proj := u.clk.proj + 1, cause := 3 } := by
  subst hu hk
  have hraise : projectionWindow lower t s = State.limit
      { s.tickTo t with clk := { (s.tickTo t).clk with window := some ((s.tickTo t).aon / 13000000) } } 3
      fun c => { c with proj := c.proj + 1 } := by
    rw [projectionWindow, if_neg (Nat.not_le.2 hnew), if_pos hhot, if_pos hproj]
  rw [hraise]
  exact retargets_retarget rfl rfl

/-! ### The rows of the divider and the trim -/

theorem exec_dividerSwitchStop (ctr : BitVec 12) (s : State) : exec (.dividerSwitchStop ctr) s = .next (dividerSwitchStop ctr s) := rfl
theorem exec_dividerSwitchResume (s : State) : exec .dividerSwitchResume s = .next (dividerSwitchResume s) := rfl
theorem exec_trimRampComplete (s : State) : exec .trimRampComplete s = .next (trimRampComplete s) := rfl
theorem exec_projectionWindow (lower : Bool) (t : Nat) (s : State) :
    exec (.projectionWindow lower t) s = .next (projectionWindow lower t s) := rfl

end Sys2Proof.Machine

namespace Sys2Proof.Claim
open Sys2Proof Sys2Proof.Machine

/-- Settles O49: the bounds of the largest limit; the stop of a switch Station by Station; its resume, a change of a limit and the end of a
ramp by what recomputing the divider does; and a rise of the projection as such a change. -/
theorem theDividerSwitches : Obligations.TheDividerSwitches := by
  unfold Obligations.TheDividerSwitches
  intro s o n x t ctr c after
  refine ⟨?_, fun hstop => ?_, fun hresume => ⟨fun hd htrim => ?_, fun hd htrim hx => ?_, fun hd hramp => ?_⟩, fun cause b f h => ?_,
    fun hramp => ?_, ?_, ?_⟩
  · obtain ⟨hfive, hmargin, hproj, hguard, hsix⟩ := le_divLimit s
    exact ⟨hfive, hmargin, hproj, hguard, hsix, List.contains_iff_mem.2 (divLimit_mem s)⟩
  · obtain ⟨d, y, e, hduty, hstn⟩ := dividerSwitchStop_spec ctr hstop
    refine ⟨_, exec_dividerSwitchStop ctr s, ?_⟩
    rw [e]
    exact ⟨rfl, hduty, hstn⟩
  · exact congrArg _ (dividerSwitchResume_done hresume hd htrim)
  · exact congrArg _ (dividerSwitchResume_ramps hresume hd htrim hx)
  · exact ⟨_, exec_dividerSwitchResume s, dividerSwitchResume_again hresume hd hramp⟩
  · exact limit_stays (h.imp_left fun hswitch => Option.isSome_of_eq_some hswitch)
  · exact ⟨_, exec_trimRampComplete s, trimRampComplete_retargets hramp⟩
  · intro u m b hswitch hnew hhot hproj
    have hclk := clk_of_retargets_stays (projectionWindow_raises true rfl rfl hnew hhot hproj) (.inl (Option.isSome_of_eq_some hswitch))
    refine ⟨_, exec_projectionWindow true t s, ?_⟩
    rw [hclk]
    exact ⟨rfl, hswitch, rfl⟩
  · intro u m hswitch hdiv hnew hhot hbelow hproj
    have hclk := clk_of_retargets_stays (projectionWindow_raises true rfl rfl hnew hhot hproj)
      (.inr (Eq.trans (divLimit_proj_succ u (hdiv ▸ hbelow) rfl rfl rfl rfl) hdiv))
    refine ⟨_, exec_projectionWindow true t s, ?_⟩
    rw [hclk]
    exact ⟨rfl, hswitch, rfl⟩

end Sys2Proof.Claim
end

/-! ### The front panel (R332, R537, R539, R540) -/

section
namespace Sys2Proof.Machine

/-! ### The bits of a register -/

section
variable {w : Nat} (r : BitVec w)

/-- A single bit at place `i`. -/
theorem getLsbD_one_shiftLeft (i k : Nat) : (1#w <<< i).getLsbD k = (decide (i < w) && decide (k = i)) :=
  (BitVec.getLsbD_twoPow i k).trans (by rw [decide_eq_decide.2 (eq_comm (a := i))])

/-- Setting a bit of the register sets it and no other. -/
theorem getLsbD_setB {i : Nat} (hi : i < w) (k : Nat) : (setB r i).getLsbD k = (r.getLsbD k || decide (k = i)) := by
  rw [setB, BitVec.getLsbD_or, getLsbD_one_shiftLeft, decide_eq_true hi, Bool.true_and]

/-- Masking a bit away clears it and no other. -/
theorem getLsbD_and_not_bit (i k : Nat) : (r &&& ~~~ (1#w <<< i)).getLsbD k = (r.getLsbD k && decide (k ≠ i)) := by
  rw [BitVec.getLsbD_and, BitVec.getLsbD_not, getLsbD_one_shiftLeft]
  by_cases hk : k < w
  · by_cases e : k = i
    · subst e
      simp [hk]
    · simp [hk, e]
  · rw [BitVec.getLsbD_of_ge r k (Nat.not_lt.1 hk), Bool.false_and, Bool.false_and]

/-- Setting the bits of a list of which a condition holds sets these bits and no other. -/
theorem getLsbD_foldl_setB (f : Nat → Bool) (l : List Nat) (hl : ∀ i ∈ l, i < w) (k : Nat) :
    (l.foldl (fun r i => if f i then setB r i else r) r).getLsbD k = (r.getLsbD k || (f k && decide (k ∈ l))) := by
  induction l generalizing r with
  | nil => simp
  | cons a l ih =>
    obtain ⟨ha, hrest⟩ := List.forall_mem_cons.1 hl
    rw [List.foldl_cons, ih _ hrest]
    by_cases hf : f a = true
    · rw [if_pos hf, getLsbD_setB r ha]
      by_cases e : k = a
      · subst e
        simp [hf]
      · simp [e]
    · rw [if_neg hf]
      by_cases e : k = a
      · subst e
        simp [hf]
      · simp [e]

/-- A write-1-to-clear field clears the bits of its mask that are written as 1. -/
theorem clears_w1c (mask v : BitVec w) : Claim.Clears r (w1c r mask v) mask v := by
  intro k hk
  rw [w1c, BitVec.getLsbD_and, BitVec.getLsbD_not, decide_eq_true hk, Bool.true_and, BitVec.getLsbD_and, Bool.and_comm (v.getLsbD k)]

end

/-- A register shows the low `n` bits of the word that stores it. -/
theorem testBit_keep_low (r : BitVec 32) {n : Nat} (hn : n ≤ 32) (k : Nat) :
    (keep r (2 ^ n - 1)).testBit k = (decide (k < n) && r.getLsbD k) := by
  have hmod : (2 ^ n - 1) % 2 ^ 32 = 2 ^ n - 1 :=
    Nat.mod_eq_of_lt (Nat.lt_of_lt_of_le (Nat.sub_one_lt (Nat.ne_of_gt (Nat.two_pow_pos n))) (Nat.pow_le_pow_right Nat.two_pos hn))
  rw [keep, BitVec.toNat_and, BitVec.toNat_ofNat, hmod, Nat.testBit_and, Nat.testBit_two_pow_sub_one, Bool.and_comm]
  rfl

/-! ### Cages and their bits -/

/-- The bit of a cage lies within PWR_CAGE_FAULT. -/
theorem cageBit_lt {c : Nat} (h : c < 20) : cageBit c < 32 := by
  unfold cageBit
  split <;> omega

theorem tkeys_tdel_contains {α : Type} (t : Tab α) (k : Nat) : (tkeys (tdel t k)).contains k = false := by
  simp [tkeys, tdel]

/-! ### The links of the serving ports -/

section
variable (s : State) (p : Fin 2) (up : Bool)

/-- Setting the link of a serving port sets it. -/
theorem linkUp_setLink_self : (s.modPanel (·.setLink p up)).linkUp p = up := by
  unfold State.linkUp State.modPanel Panel.setLink
  split <;> rfl

/-- Setting the link of a serving port leaves the other's as it was. -/
theorem linkUp_setLink_other : (s.modPanel (·.setLink p up)).linkUp (1 - p.val) = s.linkUp (1 - p.val) := by
  match p with
  | 0 => rfl
  | 1 => rfl

end

/-! ### A cage loses its power -/

/-- Losing its power, a cage changes its own power and the link of the port that it serves. -/
theorem off_spec (x : Panel) (c : Nat) :
    x.off c = { x with
      power := x.power &&& ~~~ (1#20 <<< c)
      link0 := x.link0 && decide (c ≠ 0)
      link1 := x.link1 && decide (c ≠ 1) } := by
  match c with
  | 0 => simp [Panel.off, Panel.setLink]
  | 1 => simp [Panel.off, Panel.setLink]
  | c + 2 =>
    have h2 : ¬ c + 2 < 2 := by omega
    have h0 : c + 2 ≠ 0 := by omega
    have h1 : c + 2 ≠ 1 := by omega
    rw [decide_eq_true h0, decide_eq_true h1, Bool.and_true, Bool.and_true, Panel.off, if_neg h2]

/-- Against `u`, cage `c` has no power and the port that it serves is down; all other power and links are as in `u`, and so is everything
off the front panel. -/
def Darkens (u v : State) (c : Nat) : Prop :=
  v.panel.power.getLsbD c = false ∧ (∀ d, d ≠ c → v.panel.power.getLsbD d = u.panel.power.getLsbD d) ∧
    v.panel.link0 = (u.panel.link0 && decide (c ≠ 0)) ∧ v.panel.link1 = (u.panel.link1 && decide (c ≠ 1)) ∧
    v = { u with panel := v.panel }

/-- A cage that loses its power goes dark, whatever becomes of presence and fault. -/
theorem darkens_off (u : State) (c : Nat) (present : Tab Nat) (fault : BitVec 32) :
    Darkens u (u.modPanel fun x => { x with present := present, fault := fault }.off c) c := by
  simp only [Darkens, State.modPanel, off_spec, getLsbD_and_not_bit]
  refine ⟨?_, fun d hd => ?_, trivial, trivial, trivial⟩
  · simp
  · simp [hd]

/-! ### The rows of the front panel -/

section
variable (s : State) (c : Fin 20) (p : Fin 2) (v : BitVec 32) (t : Nat)

theorem exec_cageModuleInserted : exec (.cageModuleInserted c t) s = .next (cageModuleInserted c t s) := rfl
theorem exec_cageModuleRemoved : exec (.cageModuleRemoved c t) s = .next (cageModuleRemoved c t s) := rfl
theorem exec_cagePowerOn : exec (.cagePowerOn c t) s = .next (cagePowerOn c t s) := rfl
theorem exec_cageOvercurrent : exec (.cageOvercurrent c t) s = .next (cageOvercurrent c t s) := rfl
theorem exec_pwrCageFaultWrite : exec (.pwrCageFaultWrite v t) s = .next (pwrCageFaultWrite v t s) := rfl
theorem exec_servingLinkDown : exec (.servingLinkDown p t) s = .next (servingLinkDown p t s) := rfl
theorem exec_servingLinkUp : exec (.servingLinkUp p t) s = .next (servingLinkUp p t s) := rfl

end

section
variable {s u : State} {c t : Nat} (hu : s.tickTo t = u)
include hu

/-- A module inserted into an empty cage is present from then on. -/
theorem cageModuleInserted_empty (h : (tkeys u.panel.present).contains c = false) :
    cageModuleInserted c t s = u.modPanel fun x => { x with present := fput x.present c u.aon } := by
  subst hu
  rw [cageModuleInserted, if_neg (by rw [h]; exact Bool.false_ne_true)]

/-- A removed module is no longer present, and its cage goes dark. -/
theorem cageModuleRemoved_spec : Darkens u (cageModuleRemoved c t s) c ∧
    (cageModuleRemoved c t s).panel.present = tdel u.panel.present c ∧ (cageModuleRemoved c t s).panel.fault = u.panel.fault := by
  subst hu
  refine ⟨darkens_off _ c (tdel (s.tickTo t).panel.present c) (s.tickTo t).panel.fault, ?_⟩
  simp only [cageModuleRemoved, State.modPanel, off_spec, and_self]

/-- A powered cage that draws too much current goes dark, and its bit of PWR_CAGE_FAULT is set. -/
theorem cageOvercurrent_powered (h : u.panel.power.getLsbD c = true) : Darkens u (cageOvercurrent c t s) c ∧
    (cageOvercurrent c t s).panel.present = u.panel.present ∧ (cageOvercurrent c t s).panel.fault = setB u.panel.fault (cageBit c) := by
  subst hu
  rw [cageOvercurrent, if_pos h]
  refine ⟨darkens_off _ c (s.tickTo t).panel.present (setB (s.tickTo t).panel.fault (cageBit c)), ?_⟩
  simp only [State.modPanel, off_spec, and_self]

section
variable {since : Nat} (hfind : u.panel.present.find? (fun x => x.1 == c) = some (c, since))
include hfind

/-- A cage whose module has been present for 10 ms gets its power, if it has not been switched off for its current. -/
theorem cagePowerOn_powers (hp : u.pwr.powered = true) (hs : since + 130000 ≤ u.aon) (hf : u.panel.fault.getLsbD (cageBit c) = false) :
    cagePowerOn c t s = u.modPanel fun x => { x with power := setB x.power c } := by
  subst hu
  simp only [cagePowerOn, hfind]
  exact if_pos ⟨hp, hs, by rw [hf]; rfl⟩

/-- A cage that has been switched off for its current stays off. -/
theorem cagePowerOn_faulted (hf : u.panel.fault.getLsbD (cageBit c) = true) : cagePowerOn c t s = u := by
  subst hu
  simp only [cagePowerOn, hfind]
  refine if_neg ?_
  rintro ⟨-, -, h⟩
  simp [hf] at h

end

/-- A write of PWR_CAGE_FAULT gives power to the cages that hold a module and whose bit it clears. -/
theorem power_pwrCageFaultWrite (v : BitVec 32) {d : Nat} (hd : d < 20) :
    (pwrCageFaultWrite v t s).panel.power.getLsbD d =
      (u.panel.power.getLsbD d || (v.getLsbD (cageBit d) && u.panel.fault.getLsbD (cageBit d) && (tkeys u.panel.present).contains d)) := by
  subst hu
  have h := getLsbD_foldl_setB (s.tickTo t).panel.power
    (fun c => v.getLsbD (cageBit c) && (s.tickTo t).panel.fault.getLsbD (cageBit c) && (tkeys (s.tickTo t).panel.present).contains c)
    (List.range 20) (fun _ => List.mem_range.1) d
  rwa [decide_eq_true (List.mem_range.2 hd), Bool.and_true] at h

/-- The link of a serving port comes up while the ports have power and are not silent and its cage has not been switched off. -/
theorem servingLinkUp_raises (hp : u.pwr.powered = true) (hs : u.pwr.silent = false) (hf : u.panel.fault.getLsbD (cageBit c) = false) :
    servingLinkUp c t s = u.modPanel (·.setLink c true) := by
  subst hu
  simp [servingLinkUp, hp, hs, hf]

end

end Sys2Proof.Machine

namespace Sys2Proof.Claim
open Sys2Proof Sys2Proof.Machine

/-- Settles O55: each row by what it does to the front panel, with the bits of its words read one by one. -/
theorem cagesAreSwitched : Obligations.CagesAreSwitched := by
  unfold Obligations.CagesAreSwitched
  intro s c p w since t u x bit panel dark
  have hu : s.tickTo t = u := rfl
  refine ⟨⟨_, rfl, fun k => testBit_keep_low s.panel.fault (n := 20) (by decide) k⟩, rfl, fun hpower => ?_, ?_, fun hempty => ?_, ?_,
    fun hfind hp hs => ⟨fun hf => ?_, fun hf => ?_⟩, ?_, fun hp hsilent hf => ?_⟩
  · obtain ⟨hdark, hpresent, hfault⟩ := cageOvercurrent_powered hu hpower
    refine ⟨_, exec_cageOvercurrent s c t, hdark, hpresent, fun k => ?_⟩
    rw [hfault]
    exact getLsbD_setB x.fault (cageBit_lt c.isLt) k
  · exact ⟨_, exec_pwrCageFaultWrite s w t, rfl, clears_w1c x.fault _ w, rfl, rfl, rfl, fun d hd => power_pwrCageFaultWrite hu w hd⟩
  · rw [exec_cageModuleInserted, cageModuleInserted_empty hu hempty]
    rfl
  · obtain ⟨hdark, hpresent, hfault⟩ := cageModuleRemoved_spec (c := c) hu
    refine ⟨_, exec_cageModuleRemoved s c t, hdark, ?_, hfault⟩
    rw [hpresent]
    exact tkeys_tdel_contains x.present c
  · refine ⟨_, exec_cagePowerOn s c t, ?_⟩
    rw [cagePowerOn_powers hu hfind hp hs hf]
    exact ⟨rfl, fun d _ => getLsbD_setB x.power c.isLt d⟩
  · rw [exec_cagePowerOn, cagePowerOn_faulted hu hfind hf]
  · exact ⟨_, exec_servingLinkDown s p t, linkUp_setLink_self u p false, linkUp_setLink_other u p false, rfl⟩
  · refine ⟨_, exec_servingLinkUp s p t, ?_⟩
    rw [servingLinkUp_raises hu hp hsilent hf]
    exact ⟨linkUp_setLink_self u p true, linkUp_setLink_other u p true, rfl⟩

end Sys2Proof.Claim
end
